-- ==== Sys2Proof/Word.lean ====
section
/-! DEFINITION. The word types of the Wiegand decoder FSM: line pairs, bytes, the dispatch word, and one tick's
sampled inputs (00_scope.md R9, R10, R11). -/

namespace Sys2Proof

/-- Eight bits: the staged length, the shift register, one serial byte. -/
abbrev Byte := BitVec 8

/-- The dispatch word `DW[7:0]` (30_encoding.md R84). -/
abbrev DispatchWord := BitVec 8

/-- A line pair `d1, d0`, `d1` in bit 1 (R11): 1 is high (de-asserted), 0 is low (asserted). -/
abbrev LinePair := BitVec 2

/-- Both lines high: idle. -/
abbrev LinePair.HH : LinePair := 0b11#2

/-- `d1` high, `d0` low: a pulse of bit value 0. -/
abbrev LinePair.HL : LinePair := 0b10#2

/-- `d1` low, `d0` high: a pulse of bit value 1. -/
abbrev LinePair.LH : LinePair := 0b01#2

/-- Both lines low: noise. -/
abbrev LinePair.LL : LinePair := 0b00#2

/-- The four inputs as sampled at one tick (R9, R10); `true` is the high level. -/
structure Pins where
  /-- Reset, active high. -/
  rst : Bool
  /-- The Wiegand line whose low pulse means bit 1. -/
  d1 : Bool
  /-- The Wiegand line whose low pulse means bit 0. -/
  d0 : Bool
  /-- The host's serial clock. -/
  sck : Bool
  deriving DecidableEq, Repr, Inhabited

end Sys2Proof
end

