-- ==== Sys2Proof/Config.lean ====
section
/-! DEFINITION. The implementation parameters of 00_scope.md R7, their defaults, and the free values: the constants
the spec leaves open, opaque, so that no proof can see them. -/

namespace Sys2Proof

/-- The four transitions that `IDLE_STOP_SET` may hold (40_sampler.md R107, D4), named before-to-after: those that are
neither a valid pulse nor the trailing edge of one. -/
inductive QuietMove where
  | hhToLl
  | hlToLl
  | lhToLl
  | llToHh
  deriving DecidableEq, Repr

/-- The line pair before the transition (`PREV`). -/
def QuietMove.prev : QuietMove → LinePair
  | .hhToLl => LinePair.HH
  | .hlToLl => LinePair.HL
  | .lhToLl => LinePair.LH
  | .llToHh => LinePair.LL

/-- The line pair after the transition (`CUR`). -/
def QuietMove.cur : QuietMove → LinePair
  | .hhToLl => LinePair.LL
  | .hlToLl => LinePair.LL
  | .lhToLl => LinePair.LL
  | .llToHh => LinePair.HH

namespace Config

/-- `IDLE_STOP_SET`: a subset of the four transitions, one membership bit each (R7, R107, D4). -/
structure IdleStopSet where
  hhToLl : Bool
  hlToLl : Bool
  lhToLl : Bool
  llToHh : Bool
  deriving DecidableEq, Repr, Inhabited

/-- Membership in `IDLE_STOP_SET`. -/
def IdleStopSet.has (stop : IdleStopSet) : QuietMove → Bool
  | .hhToLl => stop.hhToLl
  | .hlToLl => stop.hlToLl
  | .lhToLl => stop.lhToLl
  | .llToHh => stop.llToHh

/-- The default of R7: the transition from both low to both high, alone. -/
def defaultIdleStop : IdleStopSet := ⟨false, false, false, true⟩

/-- `PARITY_CLEAR_INDEX(n)` for n = 2, 6, ..., 62, entry k for n = 4 k + 2 (R7, R129, D6). -/
abbrev ClearIndex := Vector (Fin 64) 16

/-- The default of R7: `PARITY_CLEAR_INDEX(n) = n - 2`. -/
def defaultClearIndex : ClearIndex := #v[0, 4, 8, 12, 16, 20, 24, 28, 32, 36, 40, 44, 48, 52, 56, 60]

/-- What an implementation fixes and no operation writes (R7, R8, 70_reset_and_hazards.md R214 (a)). Widths that R7
fixes (`ACC_W`, `CNT_MAX`, `LEN_W`) are in the types of State; the polarity is in the names of the ports (D21). -/
structure Params where
  /-- `DEADLINE - 1`: the parameter is at least 1 by this form (R7, U10). -/
  deadlineLess1 : Nat
  /-- The bits of the timer count register beyond those that `DEADLINE` needs: `TMR_W` by this form (R7, D11). -/
  spareTimerBits : Nat
  /-- `F_CLK`, the frequency of `clk` in hertz; no rule depends on it (R7, D22). -/
  clockHz : Nat
  idleStop : IdleStopSet
  clearIndex : ClearIndex
  deriving DecidableEq, Repr, Inhabited

/-- `DEADLINE`, in ticks (R7, R121). -/
def Params.deadline (p : Params) : Nat := p.deadlineLess1 + 1

/-- `TMR_W`, the width of the timer count register: any width with `DEADLINE < 2 ^ TMR_W` (R7, D11; log entry 3). -/
def Params.tmrW (p : Params) : Nat := p.deadline.log2 + 1 + p.spareTimerBits

/-- FREE VALUE (log entry 1): the reset machine's `DEADLINE - 1`, OPEN in the spec (R7, D11, D22). -/
opaque deadlineLess1 : Nat

/-- FREE VALUE (log entry 3): how far the reset machine's `TMR_W`, OPEN in the spec, exceeds the least width (R7, D11). -/
opaque spareTimerBits : Nat

/-- FREE VALUE (log entry 12): the reset machine's `F_CLK`, OPEN in the spec (R7, D22). -/
opaque clockHz : Nat

/-- The parameters of the reset machine: the three open ones, and the spec's defaults for the other two (R7). -/
def params : Params where
  deadlineLess1 := deadlineLess1
  spareTimerBits := spareTimerBits
  clockHz := clockHz
  idleStop := defaultIdleStop
  clearIndex := defaultClearIndex

/-- FREE VALUE (log entry 4): what the outside world drives at a tick for which State lists no sample (R10, R15). -/
opaque freePins : Nat → Pins

/-- FREE VALUE (log entry 8): what `TMO.STRIP` leaves in the accumulator where its count is not 2 modulo 4, for which
41_frame_timer.md R128, R129 state no result. -/
opaque stripOutside : BitVec 64 → BitVec 6 → BitVec 64

end Config
end Sys2Proof
end

