-- ==== Sys2Proof/Syntax.lean ====
section
/-! DEFINITION. The thirteen operations of 30_encoding.md R85, one constructor per row of spec/opcode_table.json, with the
fields of the dispatch word that the row leaves free (R84) as arguments. -/

namespace Sys2Proof

/-- An operation of the block (R2, R85). -/
inductive Instr where
  /-- `SAMPLE.BIT0`: a valid pulse of bit value 0, from the pair `prev` (40_sampler.md R102). -/
  | sampleBit0 (prev : LinePair)
  /-- `SAMPLE.BIT1`: a valid pulse of bit value 1, from the pair `prev` (R103). -/
  | sampleBit1 (prev : LinePair)
  /-- `SAMPLE.IDLE`: a transition of `IDLE_STOP_SET` (R107). -/
  | sampleIdle (move : QuietMove)
  /-- `SAMPLE.END0`: the trailing edge of a 0 pulse (R108). -/
  | sampleEnd0
  /-- `SAMPLE.END1`: the trailing edge of a 1 pulse (R108). -/
  | sampleEnd1
  /-- `SAMPLE.NOISE`: a both-line transition outside `IDLE_STOP_SET` (R109, R107). -/
  | sampleNoise (move : QuietMove)
  /-- `TMR.TICK`: the timer counts (41_frame_timer.md R122). -/
  | tmrTick
  /-- `TMO.DISCARD`: timeout of an odd frame; `cl` is `Cnt[1:0]` (R125). -/
  | tmoDiscard (cl : BitVec 2)
  /-- `TMO.FINAL`: timeout of a frame of 4 k bits (R126). -/
  | tmoFinal
  /-- `TMO.STRIP`: timeout of a frame of 4 k + 2 bits (R127). -/
  | tmoStrip
  /-- `SPI.SHIFT`: a serial clock edge inside a byte; `idx` is `SpiCnt` before it (42_serializer.md R143). -/
  | spiShift (idx : BitVec 3)
  /-- `SPI.BYTE`: the serial clock edge that ends a byte (R144). -/
  | spiByte
  /-- `RESET` (70_reset_and_hazards.md R210). -/
  | reset
  deriving DecidableEq, Repr

end Sys2Proof
end

