-- ==== Sys2Proof/WellFormed.lean ====
section
/-! DEFINITION. Which operations have a dispatch word: the operands that 30_encoding.md R84, R85, R87 admit, given
`IDLE_STOP_SET` (40_sampler.md R107). -/

namespace Sys2Proof

/-- An instruction is well-formed when its fields are those of a word that selects its row: a `LINE` word is a
transition (R87), `SAMPLE.IDLE` holds exactly the transitions of `IDLE_STOP_SET` (R107), `TMO.DISCARD` an odd count
(R124), `SPI.SHIFT` an index below 7 (R85). -/
def Instr.wf (stop : Config.IdleStopSet) : Instr → Bool
  | .sampleBit0 prev => prev != LinePair.HL
  | .sampleBit1 prev => prev != LinePair.LH
  | .sampleIdle move => stop.has move
  | .sampleEnd0 => true
  | .sampleEnd1 => true
  | .sampleNoise move => !stop.has move
  | .tmrTick => true
  | .tmoDiscard cl => cl.getLsbD 0
  | .tmoFinal => true
  | .tmoStrip => true
  | .spiShift idx => idx != 7#3
  | .spiByte => true
  | .reset => true

end Sys2Proof
end

