-- ==== Sys2Proof/Decode.lean ====
section
/-! DEFINITION. The dispatch word: how the fields form it (30_encoding.md R84, R92), the decoder, total and rejecting the
reserved words by name (R85, R86, R87), the encoder, and the opcode table's rows as data. -/

namespace Sys2Proof

/-! ## Forming a word (R84, R92) -/

/-- `LINE`: source `0b00`, `0b00`, `PREV`, `CUR`. -/
def lineWord (prev cur : LinePair) : DispatchWord := 0b0000#4 ++ prev ++ cur

/-- `TIMER`, count. -/
def countWord : DispatchWord := 0x40#8

/-- `TIMER`, expire, with `CL` = `Cnt[1:0]`. -/
def expireWord (cl : BitVec 2) : DispatchWord := 0b010100#6 ++ cl

/-- `SPI`, with `IDX` = `SpiCnt` before the edge. -/
def spiWord (idx : BitVec 3) : DispatchWord := 0b10000#5 ++ idx

/-- `RESET`. -/
def resetWord : DispatchWord := 0xC0#8

/-! ## Decoding -/

/-- Why a word is reserved (R87). -/
inductive Reserved where
  /-- A `LINE` word with `DW[5:4]` not zero (`0x10` to `0x3F`). -/
  | lineHighBits
  /-- A `LINE` word with `PREV = CUR`, which is no transition (`0x00`, `0x05`, `0x0A`, `0x0F`). -/
  | noTransition
  /-- A `TIMER` word that is neither count nor expire (`0x41` to `0x4F`, `0x54` to `0x7F`). -/
  | timerFields
  /-- An `SPI` word with a bit above `IDX` set (`0x88` to `0xBF`). -/
  | spiFields
  /-- A `RESET` word with a low bit set (`0xC1` to `0xFF`). -/
  | resetFields
  deriving DecidableEq, Repr

/-- What the decoder answers: an operation, or the name of the reserved group. -/
inductive Decoded where
  | op (i : Instr)
  | reserved (r : Reserved)
  deriving DecidableEq, Repr

/-- `SAMPLE.IDLE` for a transition of `IDLE_STOP_SET`, else `SAMPLE.NOISE` (R107). -/
def quietInstr (stop : Config.IdleStopSet) (move : QuietMove) : Instr :=
  if stop.has move then .sampleIdle move else .sampleNoise move

/-- The operation of a transition of the line pair (R71, R85, R88); `none` where `prev = cur`. -/
def lineInstr (stop : Config.IdleStopSet) (prev cur : LinePair) : Option Instr :=
  if prev = cur then none
  else if cur = LinePair.HL then some (.sampleBit0 prev)
  else if cur = LinePair.LH then some (.sampleBit1 prev)
  else if cur = LinePair.LL then
    if prev = LinePair.HH then some (quietInstr stop .hhToLl)
    else if prev = LinePair.HL then some (quietInstr stop .hlToLl)
    else some (quietInstr stop .lhToLl)
  else
    if prev = LinePair.HL then some .sampleEnd0
    else if prev = LinePair.LH then some .sampleEnd1
    else some (quietInstr stop .llToHh)

/-- The timeout operation of a count with low bits `cl`: oddness first, then the multiple of 4 (41_frame_timer.md R124). -/
def expireInstr (cl : BitVec 2) : Instr :=
  if cl.getLsbD 0 then .tmoDiscard cl
  else if cl = 0#2 then .tmoFinal
  else .tmoStrip

/-- The serializer's operation at bit index `idx` (42_serializer.md R142). -/
def spiInstr (idx : BitVec 3) : Instr :=
  if idx = 7#3 then .spiByte else .spiShift idx

/-- The decoder (R84, R85, R86, R87), for a machine whose idle-stop set is `stop`. -/
def decode (stop : Config.IdleStopSet) (w : DispatchWord) : Decoded :=
  let src := w.extractLsb' 6 2
  if src = 0b00#2 then
    if w.extractLsb' 4 2 ≠ 0#2 then .reserved .lineHighBits
    else match lineInstr stop (w.extractLsb' 2 2) (w.extractLsb' 0 2) with
      | some i => .op i
      | none => .reserved .noTransition
  else if src = 0b01#2 then
    if w = countWord then .op .tmrTick
    else if w.extractLsb' 2 4 = 0b0100#4 then .op (expireInstr (w.extractLsb' 0 2))
    else .reserved .timerFields
  else if src = 0b10#2 then
    if w.extractLsb' 3 3 = 0#3 then .op (spiInstr (w.extractLsb' 0 3))
    else .reserved .spiFields
  else
    if w = resetWord then .op .reset else .reserved .resetFields

/-- The instruction that the decoder reads from a table word of `nbits` bits, for the spec's default parameters. Every
dispatch word is 8 bits, and a table word of fewer bits has zeros above. -/
def decodeTableWord (nbits w : Nat) : Option Instr :=
  if nbits ≤ 8 ∧ w < 2 ^ nbits then
    match decode Config.defaultIdleStop (BitVec.ofNat 8 w) with
    | .op i => some i
    | .reserved _ => none
  else none

/-! ## Encoding -/

/-- The dispatch word of an instruction (R84, R85). -/
def encode : Instr → DispatchWord
  | .sampleBit0 prev => lineWord prev LinePair.HL
  | .sampleBit1 prev => lineWord prev LinePair.LH
  | .sampleIdle move => lineWord move.prev move.cur
  | .sampleEnd0 => lineWord LinePair.HL LinePair.HH
  | .sampleEnd1 => lineWord LinePair.LH LinePair.HH
  | .sampleNoise move => lineWord move.prev move.cur
  | .tmrTick => countWord
  | .tmoDiscard cl => expireWord cl
  | .tmoFinal => expireWord 0b00#2
  | .tmoStrip => expireWord 0b10#2
  | .spiShift idx => spiWord idx
  | .spiByte => spiWord 7#3
  | .reset => resetWord

/-! ## The opcode table as data (R85, for the default idle-stop set) -/

/-- A row's pattern: a word `w` selects the row when `w &&& mask = pattern`. -/
structure Row where
  pattern : DispatchWord
  mask : DispatchWord
  deriving DecidableEq, Repr

/-- The row of R85 that an instruction belongs to. -/
def Instr.row : Instr → Row
  | .sampleBit0 _ => ⟨0x02#8, 0xF3#8⟩
  | .sampleBit1 _ => ⟨0x01#8, 0xF3#8⟩
  | .sampleIdle _ => ⟨0x03#8, 0xFF#8⟩
  | .sampleEnd0 => ⟨0x0B#8, 0xFF#8⟩
  | .sampleEnd1 => ⟨0x07#8, 0xFF#8⟩
  | .sampleNoise _ => ⟨0x00#8, 0xF3#8⟩
  | .tmrTick => ⟨0x40#8, 0xFF#8⟩
  | .tmoDiscard _ => ⟨0x51#8, 0xFD#8⟩
  | .tmoFinal => ⟨0x50#8, 0xFF#8⟩
  | .tmoStrip => ⟨0x52#8, 0xFF#8⟩
  | .spiShift _ => ⟨0x80#8, 0xF8#8⟩
  | .spiByte => ⟨0x87#8, 0xFF#8⟩
  | .reset => ⟨0xC0#8, 0xFF#8⟩

/-- The rows of R85 in the order in which a decoder tests them: exact masks first (R86). -/
def opcodeRows : List Row :=
  [⟨0x03#8, 0xFF#8⟩, ⟨0x0B#8, 0xFF#8⟩, ⟨0x07#8, 0xFF#8⟩, ⟨0x40#8, 0xFF#8⟩, ⟨0x50#8, 0xFF#8⟩, ⟨0x52#8, 0xFF#8⟩,
    ⟨0x87#8, 0xFF#8⟩, ⟨0xC0#8, 0xFF#8⟩]
    ++ [⟨0x51#8, 0xFD#8⟩, ⟨0x80#8, 0xF8#8⟩, ⟨0x02#8, 0xF3#8⟩, ⟨0x01#8, 0xF3#8⟩, ⟨0x00#8, 0xF3#8⟩]

/-- The four words that a wide row would otherwise catch, tested before anything else (R86, R87). -/
def noTransitionWords : List DispatchWord := [0x00#8, 0x05#8, 0x0A#8, 0x0F#8]

/-- Which row a word selects, read from the table alone (R85, R86, R87). -/
def selectRow (w : DispatchWord) : Option Row :=
  if w ∈ noTransitionWords then none else opcodeRows.find? fun r => w &&& r.mask == r.pattern

end Sys2Proof
end

