-- ==== Sys2Proof/Machine/State.lean ====
section
/-! DEFINITION. The state of the block (10_state.md R20, R32), the reasons a step can stop, and the state after reset
(R38). -/

namespace Sys2Proof.Machine

/-- Why an operation has no meaning where the spec gives it none: the elements of the spec's `Fault` (R32, R196). -/
inductive Fault where
  /-- Raised by `SAMPLE.BIT0` and `SAMPLE.BIT1` for the 64th pulse of a frame (40_sampler.md R106), and standing until
  RESET. Safe: the operation ends in no state (log entries 6, 7). -/
  | counterOverflow
  deriving DecidableEq, Repr

/-- Why a step is refused. -/
inductive Refusal where
  /-- An arm of `exec` that has no meaning yet. Safe. -/
  | notModelled (mnemonic : String)
  /-- Running a dispatch word that 30_encoding.md R87 reserves. Safe: no tick forms one (U8). -/
  | reservedWord (group : Reserved)
  /-- An event that 60_exceptions.md R194 does not enable: a line event without a change, an expiry with the timer
  stopped. Safe: no tick maps to one. -/
  | eventNotEnabled
  deriving DecidableEq, Repr

/-- The state: the tuple of R20, the model's `Fault` (R32), the implementation's parameters (00_scope.md R7), and the
model's view of the outside world. -/
structure State where
  /-- `Cnt`, the bit counter (R21). -/
  cnt : BitVec 6
  /-- `Acc`, the bit accumulator: position i holds received bit i (R22, 20_memory.md R51). -/
  acc : BitVec 64
  /-- `Len`, the staged length (R23). -/
  len : Byte
  /-- `Rdy`, the readiness flag (R24). -/
  rdy : Bool
  /-- `SR`, the outbound shift register (R25). -/
  sr : Byte
  /-- `SpiCnt`, the serial bit index (R26). -/
  spiCnt : BitVec 3
  /-- `TmrRun`, timer running (R27). -/
  tmrRun : Bool
  /-- `TmrCnt`, the timer count (R28): a register of `params.tmrW` bits, held as a number below `2 ^ params.tmrW`
  (log entry 3). -/
  tmrCnt : Nat
  /-- `TxPend`, the transmit-pending indicator (R29). -/
  txPend : Bool
  /-- `LinePrev`, the line pair sampled at the previous tick (R30). -/
  linePrev : LinePair
  /-- `SckPrev`, `sck` sampled at the previous tick (R31). -/
  sckPrev : Bool
  /-- `Fault`, the spec's bookkeeping element of a model (R32). -/
  fault : Option Fault
  /-- The parameters of the implementation, which no step writes (00_scope.md R7). -/
  params : Config.Params
  /-- The model's own: the samples of the ticks to come (log entry 4). -/
  inputs : List Pins
  /-- The model's own: how many ticks have passed (log entry 4). -/
  tickNo : Nat
  deriving DecidableEq, Repr, Inhabited

/-- The state after reset for parameters `p`, with the samples `inputs` to come after `tickNo` ticks: every element at
the value of R38. -/
def State.resetWith (p : Config.Params) (inputs : List Pins) (tickNo : Nat) : State where
  cnt := 0#6
  acc := 0#64
  len := 0#8
  rdy := false
  sr := 0x00#8
  spiCnt := 0#3
  tmrRun := false
  tmrCnt := 0
  txPend := false
  linePrev := LinePair.HH
  sckPrev := false
  fault := none
  params := p
  inputs := inputs
  tickNo := tickNo

/-- The machine right after reset (R38; 70_reset_and_hazards.md R210, R212). -/
def State.reset : State := State.resetWith Config.params [] 0

end Sys2Proof.Machine

/-- FREE VALUE (log entry 6): what the elements of the state hold after the 64th pulse of a frame, about which the spec
says nothing (40_sampler.md R106, U2), for the state before that tick's operations. -/
opaque Sys2Proof.Config.afterOverflow : Sys2Proof.Machine.State → Sys2Proof.Machine.State
end

