-- ==== Sys2Proof/Machine/Flags.lean ====
section
/-! DEFINITION. The flags `Rdy`, `TmrRun`, `TxPend`: the only ones (10_state.md R40), each written only as R24, R27, R29
list. -/

namespace Sys2Proof.Machine

/-- `Rdy <- 1`: raised by a finalization (R24, 41_frame_timer.md R130). -/
def raiseReady (s : State) : State := { s with rdy := true }

/-- `Rdy <- 0` (R24, 42_serializer.md R145; 40_sampler.md R104 step 2). -/
def lowerReady (s : State) : State := { s with rdy := false }

/-- The timer's start: `TmrCnt <- 0`, `TmrRun <- 1` (41_frame_timer.md R120). -/
def startTimer (s : State) : State := { s with tmrCnt := 0, tmrRun := true }

/-- The timer's stop: `TmrRun <- 0`, the count held (R120, R28). -/
def stopTimer (s : State) : State := { s with tmrRun := false }

/-- `TxPend <- 1`: the byte is fully clocked out (R29, 42_serializer.md R144). -/
def markTxPend (s : State) : State := { s with txPend := true }

/-- `TxPend <- 0` (R29, R145). -/
def clearTxPend (s : State) : State := { s with txPend := false }

end Sys2Proof.Machine
end

