-- ==== Sys2Proof/Machine/Operands.lean ====
section
/-! DEFINITION. Operand assembly (30_encoding.md R89): positions, masks, bytes and comparisons that the operations compute
from the state and the sampled inputs. -/

namespace Sys2Proof.Machine

/-- The line pair of a sample, `d1` first (40_sampler.md R100). -/
def linesOf (p : Pins) : LinePair := BitVec.ofBool p.d1 ++ BitVec.ofBool p.d0

/-- Exactly one line low: a valid pulse (30_encoding.md R71). -/
def isPulse (cur : LinePair) : Bool := cur == LinePair.HL || cur == LinePair.LH

/-- The bit-order corrector `rev8` (42_serializer.md R146): bit i of the result is bit 7 - i. -/
def rev8 (b : Byte) : Byte := b.reverse

/-- The low byte of the accumulator, `Acc[7:0]` (20_memory.md R53). -/
def lowByte (a : BitVec 64) : Byte := a.extractLsb' 0 8

/-- A payload byte: `rev8(Acc[7:0])` (R89). -/
def payloadByte (s : State) : Byte := rev8 (lowByte s.acc)

/-- The length byte: `zext_8(Cnt)` (R89). -/
def lengthByte (n : BitVec 6) : Byte := n.setWidth 8

/-- `Cnt[1:0]`, the field `CL` of an expire word (R84). -/
def lowCount (n : BitVec 6) : BitVec 2 := n.extractLsb' 0 2

/-- `PARITY_CLEAR_INDEX(n)` for n modulo 4 = 2 (00_scope.md R7): entry k of the parameter for n = 4 k + 2. -/
def clearIndexOf (p : Config.Params) (n : BitVec 6) : Nat :=
  (p.clearIndex[(n.extractLsb' 2 4).toNat]'(n.extractLsb' 2 4).isLt).val

/-- The one-hot 64-bit mask `1 << k` (41_frame_timer.md R129). -/
def oneHot (k : Nat) : BitVec 64 := 1#64 <<< k

/-- `Strip(a, n)` with the cleared position `k` = `PARITY_CLEAR_INDEX(n)` (R128): shift right by one, then clear. -/
def stripAt (a : BitVec 64) (k : Nat) : BitVec 64 := (a >>> 1) &&& ~~~ oneHot k

/-- The accumulator after a strip for the count `n`: R128 where n modulo 4 = 2, free elsewhere (log entry 8). -/
def stripped (p : Config.Params) (a : BitVec 64) (n : BitVec 6) : BitVec 64 :=
  if lowCount n = 2#2 then stripAt a (clearIndexOf p n) else Config.stripOutside a n

/-- What the timer count register holds after `n` is written to it: the low `TMR_W` bits (10_state.md R28; log entry 3). -/
def timerBits (p : Config.Params) (n : Nat) : Nat := n % 2 ^ p.tmrW

/-- The timer reaches its deadline at this tick: `TmrCnt + 1 = DEADLINE` (R123). -/
def atDeadline (s : State) : Bool := s.tmrCnt + 1 == s.params.deadline

/-- A falling edge of `sck` (42_serializer.md R142). -/
def sckFalls (p : Pins) (s : State) : Bool := s.sckPrev && !p.sck

end Sys2Proof.Machine
end

