-- ==== Sys2Proof/Machine/Ops.lean ====
section
/-! DEFINITION. The named operations over the accumulator and the registers, the procedures that operations share
(`ValidBit`, `Finalize`, `TxByte`, RESET's assignment), and raising and recording the model-level fault. -/

namespace Sys2Proof.Machine

/-- What an operation answers. -/
abbrev Result := Host.Outcome State Fault Refusal

/-- Run `f` after an operation that gave a next state; a fault or a refusal stands. -/
def andThen (r : Result) (f : State → Result) : Result :=
  match r with
  | .next s => f s
  | .fault e => .fault e
  | .refused e => .refused e

/-! ## The accumulator (20_memory.md R52, R53, R54) -/

/-- `AccSetBit(i)`: `Acc[i] <- 1` (R52). -/
def accSetBit (i : Nat) (s : State) : State := { s with acc := s.acc ||| oneHot i }

/-- `AccTakeByte()` into `SR`: `SR <- rev8(Acc[7:0])`, then `Acc <- Acc >> 8` (R53, 42_serializer.md R145). -/
def takeByte (s : State) : State := { s with sr := payloadByte s, acc := s.acc >>> 8 }

/-- `Acc <- 0` (R54). -/
def clearAcc (s : State) : State := { s with acc := 0#64 }

/-- `Acc <- Strip(Acc, Cnt)` (R54, 41_frame_timer.md R127). -/
def stripAcc (s : State) : State := { s with acc := stripped s.params s.acc s.cnt }

/-! ## The counters and latches -/

/-- `Cnt <- 0`. -/
def clearCnt (s : State) : State := { s with cnt := 0#6 }

/-- `Cnt <- Cnt + 1`; the callers exclude 63 (00_scope.md R14). -/
def bumpCnt (s : State) : State := { s with cnt := s.cnt + 1#6 }

/-- `TmrCnt <- TmrCnt + 1`, in `TMR_W` bits (41_frame_timer.md R122, R28). -/
def bumpTimer (s : State) : State := { s with tmrCnt := timerBits s.params (s.tmrCnt + 1) }

/-- `SR <- (SR << 1)[7:0]` (42_serializer.md R143). -/
def shiftOut (s : State) : State := { s with sr := s.sr <<< 1 }

/-- `SpiCnt <- SpiCnt + 1`, modulo 8 (R14, R143). -/
def bumpSpi (s : State) : State := { s with spiCnt := s.spiCnt + 1#3 }

/-- `SpiCnt <- 0` (R144). -/
def clearSpi (s : State) : State := { s with spiCnt := 0#3 }

/-- `Len <- zext_8(Cnt)`, then `SR <- Len` (41_frame_timer.md R130). -/
def stageLength (s : State) : State := { s with len := lengthByte s.cnt, sr := lengthByte s.cnt }

/-- `LinePrev <- cur` (40_sampler.md R113). -/
def latchLines (cur : LinePair) (s : State) : State := { s with linePrev := cur }

/-- `SckPrev <- sck` (42_serializer.md R142). -/
def latchSck (sck : Bool) (s : State) : State := { s with sckPrev := sck }

/-! ## The shared procedures -/

/-- The stale-frame override (40_sampler.md R104 step 2, R105). -/
def override (s : State) : State :=
  if s.rdy then clearCnt (clearAcc (lowerReady s)) else s

/-- Append a bit at position `Cnt`: a 1 sets it, a 0 writes nothing (R104 step 4, 20_memory.md R52). -/
def appendBit (b : Bool) (s : State) : State :=
  if b then accSetBit s.cnt.toNat s else s

/-- A valid pulse finds the counter full: `Cnt = 63` after the override (R106). -/
def pulseOverflows (s : State) : Bool := (override s).cnt == 63#6

/-- Raising the model-level fault: the operation ends in it (R106, R12). -/
def raiseOverflow : Result := .fault .counterOverflow

/-- `ValidBit(b)` (R104), in its order. -/
def validBit (b : Bool) (s : State) : Result :=
  if pulseOverflows s then raiseOverflow
  else .next (startTimer (bumpCnt (appendBit b (override (stopTimer s)))))

/-- `Finalize()` (41_frame_timer.md R130). -/
def finalize (s : State) : State := clearCnt (raiseReady (stageLength s))

/-- `TxByte()` (42_serializer.md R145). -/
def txByte (s : State) : State := takeByte (clearTxPend (lowerReady s))

/-- RESET's assignment (70_reset_and_hazards.md R210): every element to its reset value, the parameters and the outside
world kept. -/
def resetState (s : State) : State := State.resetWith s.params s.inputs s.tickNo

/-! ## The fault element (10_state.md R32; 60_exceptions.md R190, R196) -/

/-- An operation other than RESET, on a machine whose `Fault` is empty; once it is set no such operation has a meaning
and the standing fault answers (R106, D24). -/
def unlessFaulted (s : State) (run : State → Result) : Result :=
  match s.fault with
  | none => run s
  | some f => .fault f

/-- The tick that raises a fault records it and stores the sampled lines (R190, R113); what the other elements hold is
free, each in its width (log entry 6). -/
def recordFault (f : Fault) (cur : LinePair) (s : State) : State :=
  { Config.afterOverflow s with
    tmrCnt := timerBits s.params (Config.afterOverflow s).tmrCnt
    fault := some f, linePrev := cur, params := s.params, inputs := s.inputs, tickNo := s.tickNo }

end Sys2Proof.Machine
end

