-- ==== Sys2Proof/Machine/FrameTimer.lean ====
section
/-! DEFINITION. Operation family 2, the inter-bit timer, the frame validator and the parity strip (41_frame_timer.md). -/

namespace Sys2Proof.Machine

/-- `TMR.TICK`: the timer counts one tick (R122). -/
def execTmrTick (s : State) : Result :=
  unlessFaulted s fun s => .next (bumpTimer s)

/-- `TMO.DISCARD`: timeout of a malformed frame (R125). -/
def execTmoDiscard (_cl : BitVec 2) (s : State) : Result :=
  unlessFaulted s fun s => .next (clearAcc (clearCnt (stopTimer s)))

/-- `TMO.FINAL`: timeout of a frame whose length is a multiple of 4 (R126). -/
def execTmoFinal (s : State) : Result :=
  unlessFaulted s fun s => .next (finalize (stopTimer s))

/-- `TMO.STRIP`: timeout of an even frame whose length is not a multiple of 4; the strip, then the staging of the count
as received (R127). -/
def execTmoStrip (s : State) : Result :=
  unlessFaulted s fun s => .next (finalize (stripAcc (stopTimer s)))

end Sys2Proof.Machine
end

