-- ==== Sys2Proof/Machine/ResetFamily.lean ====
section
/-! DEFINITION. The operation RESET (70_reset_and_hazards.md R210). -/

namespace Sys2Proof.Machine

/-- `RESET`: from any state, faulted or not, the reset state of 10_state.md R38. -/
def execReset (s : State) : Result := .next (resetState s)

end Sys2Proof.Machine
end

