-- ==== Sys2Proof/Machine/Sampler.lean ====
section
/-! DEFINITION. Operation family 1, the edge detector and the Bit Sampler (40_sampler.md): the six `SAMPLE.*` operations.
Each stores the new line pair (R113). -/

namespace Sys2Proof.Machine

/-- `SAMPLE.BIT0`: `ValidBit(0)` (R102). -/
def execSampleBit0 (_prev : LinePair) (s : State) : Result :=
  unlessFaulted s fun s => validBit false (latchLines LinePair.HL s)

/-- `SAMPLE.BIT1`: `ValidBit(1)` (R103). -/
def execSampleBit1 (_prev : LinePair) (s : State) : Result :=
  unlessFaulted s fun s => validBit true (latchLines LinePair.LH s)

/-- `SAMPLE.IDLE`: the both-lines-idle stop; stopping a stopped timer changes nothing (R107). -/
def execSampleIdle (move : QuietMove) (s : State) : Result :=
  unlessFaulted s fun s => .next (latchLines move.cur (stopTimer s))

/-- `SAMPLE.END0`: nothing but R113 (R108). -/
def execSampleEnd0 (s : State) : Result :=
  unlessFaulted s fun s => .next (latchLines LinePair.HH s)

/-- `SAMPLE.END1`: nothing but R113 (R108). -/
def execSampleEnd1 (s : State) : Result :=
  unlessFaulted s fun s => .next (latchLines LinePair.HH s)

/-- `SAMPLE.NOISE`: nothing but R113 (R109). -/
def execSampleNoise (move : QuietMove) (s : State) : Result :=
  unlessFaulted s fun s => .next (latchLines move.cur s)

end Sys2Proof.Machine
end

