-- ==== Sys2Proof/Machine/Serializer.lean ====
section
/-! DEFINITION. Operation family 3, the SPI slave output serializer (42_serializer.md). Both operations run at a falling
edge of `sck`, so the sample they leave in `SckPrev` is low (R142, 10_state.md R39; log entry 10). -/

namespace Sys2Proof.Machine

/-- `SPI.SHIFT`: one bit of a byte has been clocked (R143). -/
def execSpiShift (_idx : BitVec 3) (s : State) : Result :=
  unlessFaulted s fun s => .next (latchSck false (bumpSpi (shiftOut s)))

/-- `SPI.BYTE`: the eighth bit has been clocked, the transmitter runs (R144). -/
def execSpiByte (s : State) : Result :=
  unlessFaulted s fun s => .next (latchSck false (txByte (markTxPend (clearSpi (shiftOut s)))))

end Sys2Proof.Machine
end

