-- ==== Sys2Proof/Machine/Dispatch.lean ====
section
/-! DEFINITION. One arm per operation of the opcode table (30_encoding.md R85, 60_exceptions.md R186). -/

namespace Sys2Proof.Machine

def exec (i : Instr) (s : State) : Host.Outcome State Fault Refusal :=
  match i with
  | .sampleBit0 prev => Sys2Proof.Machine.execSampleBit0 prev s
  | .sampleBit1 prev => Sys2Proof.Machine.execSampleBit1 prev s
  | .sampleIdle move => Sys2Proof.Machine.execSampleIdle move s
  | .sampleEnd0 => Sys2Proof.Machine.execSampleEnd0 s
  | .sampleEnd1 => Sys2Proof.Machine.execSampleEnd1 s
  | .sampleNoise move => Sys2Proof.Machine.execSampleNoise move s
  | .tmrTick => Sys2Proof.Machine.execTmrTick s
  | .tmoDiscard cl => Sys2Proof.Machine.execTmoDiscard cl s
  | .tmoFinal => Sys2Proof.Machine.execTmoFinal s
  | .tmoStrip => Sys2Proof.Machine.execTmoStrip s
  | .spiShift idx => Sys2Proof.Machine.execSpiShift idx s
  | .spiByte => Sys2Proof.Machine.execSpiByte s
  | .reset => Sys2Proof.Machine.execReset s

end Sys2Proof.Machine
end

