-- ==== Sys2Proof/Machine/Tick.lean ====
section
/-! DEFINITION. One tick of `clk`: the words that its three parts form, the tick function (60_exceptions.md R190), where
its sample comes from, and how a word is placed so that the next tick runs it. -/

namespace Sys2Proof.Machine

/-- Run the operation that a dispatch word selects; a reserved word is refused by name (30_encoding.md R87). -/
def runWord (w : DispatchWord) (s : State) : Result :=
  match decode s.params.idleStop w with
  | .op i => exec i s
  | .reserved r => .refused (.reservedWord r)

/-- A part of a tick runs the word it forms, or nothing. -/
def runPart (w : Option DispatchWord) (s : State) : Result :=
  match w with
  | some w => runWord w s
  | none => .next s

/-- Part 1 forms a word exactly when the line pair changed (40_sampler.md R101). -/
def samplerWord (p : Pins) (s : State) : Option DispatchWord :=
  if linesOf p = s.linePrev then none else some (lineWord s.linePrev (linesOf p))

/-- `restarted` of R190: this tick's sampler operation is `SAMPLE.BIT0` or `SAMPLE.BIT1`. -/
def restarts (p : Pins) (s : State) : Bool := linesOf p != s.linePrev && isPulse (linesOf p)

/-- Part 2 forms a word when the timer runs and was not restarted in this tick: expire at the deadline, else count
(41_frame_timer.md R122, R123, R124). -/
def timerWord (restarted : Bool) (s : State) : Option DispatchWord :=
  if s.tmrRun && !restarted then
    some (if atDeadline s then expireWord (lowCount s.cnt) else countWord)
  else none

/-- Part 3 forms a word at a falling edge of `sck` (42_serializer.md R142). -/
def serialWord (p : Pins) (s : State) : Option DispatchWord :=
  if sckFalls p s then some (spiWord s.spiCnt) else none

/-- Parts 2 and 3 of a tick, on the state `s` that part 1 left (R187, R190). -/
def afterSampler (p : Pins) (restarted : Bool) (s : State) : Result :=
  andThen (runPart (timerWord restarted s) s) fun s2 =>
    andThen (runPart (serialWord p s2) s2) fun s3 => .next (latchSck p.sck s3)

/-- `tick(S, rst, d1, d0, sck)` (R190): RESET before and instead of all; nothing while a fault stands; else sampler,
timer, serializer, each seeing what the one before it left. A fault that part 1 raises is recorded and ends the tick.
Part 1 leaves `LinePrev` at the sample: its operation stores it, and without one it is equal already (R113). -/
def tick (p : Pins) (s : State) : Result :=
  if p.rst then runWord resetWord s
  else match s.fault with
  | some _ => .next s
  | none =>
    match runPart (samplerWord p s) s with
    | .next s1 => afterSampler p (restarts p s) s1
    | .fault f => .next (recordFault f (linesOf p) s)
    | .refused r => .refused r

/-! ## Where a sample comes from (log entry 4) -/

/-- The sample of the next tick: the next listed one, else whatever the outside world drives. -/
def nextSample (s : State) : Pins := s.inputs.headD (Config.freePins s.tickNo)

/-- The sample is taken and time goes on. -/
def takeSample (s : State) : State := { s with inputs := s.inputs.tail, tickNo := s.tickNo + 1 }

/-- One tick on its sample. -/
def tickNext (s : State) : Result := tick (nextSample s) (takeSample s)

/-! ## Placing a word (log entry 5) -/

/-- A sample that resets or not, shows the line pair `cur`, and drives `sck`. -/
def sampleWith (rst : Bool) (cur : LinePair) (sck : Bool) : Pins := ⟨rst, cur.getLsbD 1, cur.getLsbD 0, sck⟩

/-- The sampler's operation leaves a running timer to count in the same tick: `SAMPLE.END0/1` and `SAMPLE.NOISE`
(60_exceptions.md R191). -/
def leavesTimer (stop : Config.IdleStopSet) (prev cur : LinePair) : Bool :=
  match lineInstr stop prev cur with
  | some .sampleEnd0 => true
  | some .sampleEnd1 => true
  | some (.sampleNoise _) => true
  | _ => false

/-- The state in which the next tick runs exactly the word `w` (R84, R190): the sample that raises its trigger, the state
elements that the word copies (`LinePrev`, `Cnt[1:0]`, `SpiCnt`), the trigger's own state (`TmrRun`, the deadline's
distance and the least `TMR_W` that holds it, `SckPrev`), no other trigger, and no standing fault. A reserved word cannot be formed and places nothing. -/
def placeWord (w : DispatchWord) (s : State) : State :=
  match decode s.params.idleStop w with
  | .reserved _ => s
  | .op i =>
    let src := w.extractLsb' 6 2
    if src = 0b00#2 then
      let prev : LinePair := w.extractLsb' 2 2
      let cur : LinePair := w.extractLsb' 0 2
      { s with
        fault := none
        linePrev := prev
        tmrRun := s.tmrRun && !leavesTimer s.params.idleStop prev cur
        inputs := sampleWith false cur s.sckPrev :: s.inputs }
    else if src = 0b01#2 then
      let counts := decide (i = .tmrTick)
      { s with
        fault := none
        tmrRun := true
        cnt := if counts then s.cnt else (s.cnt.extractLsb' 2 4 ++ w.extractLsb' 0 2 : BitVec 6)
        params := { s.params with deadlineLess1 := if counts then s.tmrCnt + 1 else s.tmrCnt, spareTimerBits := 0 }
        inputs := sampleWith false s.linePrev s.sckPrev :: s.inputs }
    else if src = 0b10#2 then
      { s with
        fault := none
        tmrRun := false
        spiCnt := w.extractLsb' 0 3
        sckPrev := true
        inputs := sampleWith false s.linePrev false :: s.inputs }
    else { s with inputs := sampleWith true s.linePrev s.sckPrev :: s.inputs }

end Sys2Proof.Machine
end

