-- ==== Sys2Proof/Machine/Step.lean ====
section
/-! DEFINITION. The step of the machine, one tick (60_exceptions.md R190, 92_eei_decisions.md D1), and the host's placing of
an instruction. -/

namespace Sys2Proof.Machine

/-- One step: one tick of `clk`. -/
def step (s : State) : Host.Outcome State Fault Refusal := tickNext s

/-- `s` with the dispatch word `w` of `nbits` bits placed so that the very next step runs it (log entries 4, 5). A table
word of fewer than 8 bits has zeros above; a number that is no dispatch word places nothing. -/
def State.withFetchWord (s : State) (nbits w : Nat) : State :=
  if nbits ≤ 8 ∧ w < 2 ^ nbits then placeWord (BitVec.ofNat 8 w) s else s

end Sys2Proof.Machine
end

