-- ==== Sys2Proof/Laws/PerInstr.lean ====
section
/-! SUPPORT. A statement about each instruction as syntax, one lemma per constructor: the word of a well-formed instruction
lies in its own row of the opcode table (30_encoding.md R85), for the default idle-stop set. -/

namespace Sys2Proof.Laws.TableRow

/-- The encoded word of `i` matches the pattern of the row of `i` under its mask, and is none of the four words that no
row may catch (R86, R87). -/
def Statement (i : Instr) : Prop :=
  i.wf Config.defaultIdleStop = true →
    encode i &&& i.row.mask = i.row.pattern ∧ encode i ∉ noTransitionWords

theorem sampleBit0 (prev : LinePair) : Statement (.sampleBit0 prev) := by
  revert prev; unfold Statement; decide

theorem sampleBit1 (prev : LinePair) : Statement (.sampleBit1 prev) := by
  revert prev; unfold Statement; decide

theorem sampleIdle (move : QuietMove) : Statement (.sampleIdle move) := by
  cases move <;> (unfold Statement; decide)

theorem sampleEnd0 : Statement .sampleEnd0 := by
  unfold Statement; decide

theorem sampleEnd1 : Statement .sampleEnd1 := by
  unfold Statement; decide

theorem sampleNoise (move : QuietMove) : Statement (.sampleNoise move) := by
  cases move <;> (unfold Statement; decide)

theorem tmrTick : Statement .tmrTick := by
  unfold Statement; decide

theorem tmoDiscard (cl : BitVec 2) : Statement (.tmoDiscard cl) := by
  revert cl; unfold Statement; decide

theorem tmoFinal : Statement .tmoFinal := by
  unfold Statement; decide

theorem tmoStrip : Statement .tmoStrip := by
  unfold Statement; decide

theorem spiShift (idx : BitVec 3) : Statement (.spiShift idx) := by
  revert idx; unfold Statement; decide

theorem spiByte : Statement .spiByte := by
  unfold Statement; decide

theorem reset : Statement .reset := by
  unfold Statement; decide

end Sys2Proof.Laws.TableRow
end

