-- ==== Sys2Proof/Machine/Event.lean ====
section
/-! DEFINITION. The event-level machine (60_exceptions.md R194, 00_scope.md R16), its trace items and macros (30_encoding.md
R92, R93), the events that a tick maps to, and the byte-level view (42_serializer.md R150). -/

namespace Sys2Proof.Machine

/-- The four kinds of event (R92, R194). -/
inductive Event where
  /-- `L(cur)`: the sampled line pair changes to `cur`. -/
  | line (cur : LinePair)
  /-- `X`: the timer expires. -/
  | expire
  /-- `K`: one falling edge of `sck`. -/
  | sckFall
  /-- `RST`: reset. -/
  | reset
  deriving DecidableEq, Repr

/-- When an event may happen (R194). -/
def eventEnabled (s : State) : Event → Bool
  | .line cur => cur != s.linePrev
  | .expire => s.tmrRun
  | .sckFall => true
  | .reset => true

/-- The dispatch word of an event in a state (R92). -/
def eventWord (s : State) : Event → DispatchWord
  | .line cur => lineWord s.linePrev cur
  | .expire => expireWord (lowCount s.cnt)
  | .sckFall => spiWord s.spiCnt
  | .reset => resetWord

/-- The line pair after an event. -/
def eventLines (s : State) : Event → LinePair
  | .line cur => cur
  | _ => s.linePrev

/-- One event (R194). As in a tick, RESET alone has an effect while a fault stands, and a raised fault is recorded
(log entry 11). -/
def eventStep (e : Event) (s : State) : Result :=
  if e = .reset then runWord resetWord s
  else match s.fault with
  | some _ => .next s
  | none =>
    if eventEnabled s e then
      match runWord (eventWord s e) s with
      | .fault f => .next (recordFault f (eventLines s e) s)
      | r => r
    else .refused .eventNotEnabled

/-- A trace of events, left to right (R90, R92). -/
def runEvents : List Event → State → Result
  | [], s => .next s
  | e :: es, s => andThen (eventStep e s) (runEvents es)

/-! ## The macros (R93) -/

/-- `P0`, `P1`: one pulse, both its edges. -/
def pulse (b : Bool) : List Event := [.line (if b then LinePair.LH else LinePair.HL), .line LinePair.HH]

/-- `F(b0 b1 ...)`: a frame's pulses, first bit first. -/
def frame (bits : List Bool) : List Event := bits.flatMap pulse

/-- `B`: the host clocks one byte. -/
def clockByte : List Event := List.replicate 8 .sckFall

/-- `GLITCH`: both lines pulled low and released together. -/
def glitch : List Event := [.line LinePair.LL, .line LinePair.HH]

/-! ## From ticks to events (R194) -/

/-- The sampler's event of a tick. -/
def lineEvents (p : Pins) (s : State) : List Event :=
  if linesOf p = s.linePrev then [] else [.line (linesOf p)]

/-- The timer's event of a tick: every `TMR.TICK` is dropped. -/
def timerEvents (restarted : Bool) (s : State) : List Event :=
  if s.tmrRun && !restarted && atDeadline s then [.expire] else []

/-- The serializer's event of a tick. -/
def serialEvents (p : Pins) (s : State) : List Event :=
  if sckFalls p s then [.sckFall] else []

/-- The operations of a tick as events, in the order of its parts, `TMR.TICK` dropped (R194). -/
def tickEvents (p : Pins) (s : State) : List Event :=
  if p.rst then [.reset]
  else match s.fault with
  | some _ => []
  | none =>
    match runPart (samplerWord p s) s with
    | .next s1 => lineEvents p s ++ timerEvents (restarts p s) s1 ++ serialEvents p s
    | _ => lineEvents p s

/-- What the event level forgets: the timer count and the sampled clock level (R194). -/
def forgetTime (s : State) : State := { s with tmrCnt := 0, sckPrev := false }

/-! ## The byte level (R150) -/

/-- `HostByte()`: what eight falling edges do from `SpiCnt = 0`. -/
def afterHostByte (s : State) : State :=
  { s with
    rdy := false, txPend := false, sr := payloadByte s, acc := s.acc >>> 8, spiCnt := 0#3, sckPrev := false }

end Sys2Proof.Machine
end

