-- ==== Sys2Proof/Machine/Lifecycle.lean ====
section
/-! DEFINITION. The frame lifecycle: the phase, a function of the state, and its transition table (44_lifecycle.md). -/

namespace Sys2Proof.Machine

/-- The five phases (R160). -/
inductive Phase where
  | ready
  | accumulating
  | suspended
  | draining
  | idle
  deriving DecidableEq, Repr

/-- `Phase(S)` (R160). -/
def phase (s : State) : Phase :=
  if s.rdy then .ready
  else if s.tmrRun then .accumulating
  else if s.cnt ≠ 0#6 then .suspended
  else if s.acc ≠ 0#64 then .draining
  else .idle

/-- Whether the block may form the word of `i` in the state `s` (30_encoding.md R84): the word's copies of `Cnt[1:0]`
and `SpiCnt` are the state's, and a timer operation finds the timer running (the entries n/e of R161). -/
def opEnabled (s : State) : Instr → Bool
  | .tmrTick => s.tmrRun
  | .tmoDiscard cl => s.tmrRun && cl == lowCount s.cnt && cl.getLsbD 0
  | .tmoFinal => s.tmrRun && lowCount s.cnt == 0#2
  | .tmoStrip => s.tmrRun && lowCount s.cnt == 2#2
  | .spiShift idx => idx == s.spiCnt && idx != 7#3
  | .spiByte => s.spiCnt == 7#3
  | .sampleBit0 prev => prev == s.linePrev && prev != LinePair.HL
  | .sampleBit1 prev => prev == s.linePrev && prev != LinePair.LH
  | .sampleIdle move => move.prev == s.linePrev && s.params.idleStop.has move
  | .sampleNoise move => move.prev == s.linePrev && !s.params.idleStop.has move
  | .sampleEnd0 => s.linePrev == LinePair.HL
  | .sampleEnd1 => s.linePrev == LinePair.LH
  | .reset => true

/-- The phase after a byte has been taken from the accumulator in READY or DRAINING (R161). -/
def drained (s : State) : Phase := if s.acc >>> 8 = 0#64 then .idle else .draining

/-- The transition table of R161: the phase after operation `i` in the state `s`. -/
def phaseAfter (s : State) : Instr → Phase
  | .sampleBit0 _ => .accumulating
  | .sampleBit1 _ => .accumulating
  | .sampleIdle _ => if phase s = .accumulating then .suspended else phase s
  | .sampleEnd0 => phase s
  | .sampleEnd1 => phase s
  | .sampleNoise _ => phase s
  | .tmrTick => phase s
  | .tmoDiscard _ => .idle
  | .tmoFinal => .ready
  | .tmoStrip => .ready
  | .spiShift _ => phase s
  | .spiByte => if phase s = .ready ∨ phase s = .draining then drained s else phase s
  | .reset => .idle

end Sys2Proof.Machine
end

