-- ==== Sys2Proof/Machine/Ports.lean ====
section
/-! DEFINITION. The output ports, functions of the state alone (00_scope.md R9, R10). -/

namespace Sys2Proof.Machine

/-- The port `ready`: high exactly while `Rdy = 1` (10_state.md R24). -/
def ready (s : State) : Bool := s.rdy

/-- The port `dout`: `SR[7]`, always driven (42_serializer.md R141). -/
def dout (s : State) : Bool := s.sr.getLsbD 7

/-- The number of payload bits that a host computes from the length byte `n` (30_encoding.md R77). -/
def payloadBits (n : Nat) : Nat := if n % 4 = 2 then n - 2 else n

/-- The number of payload bytes that a host reads for the length byte `n`: `ceil(bits / 8)` (R77). -/
def payloadBytes (n : Nat) : Nat := (payloadBits n + 7) / 8

/-- The received bits that a host reads as payload: all of a frame of 4 k bits, all but the first and the last of a frame of
4 k + 2 bits (30_encoding.md R73, R77). -/
def payloadOf (bits : List Bool) : List Bool :=
  if bits.length % 4 = 2 then (bits.drop 1).dropLast else bits

end Sys2Proof.Machine
end

