-- ==== Sys2Proof/Safety.lean ====
section
/-! DEFINITION. What a safe run is: no fault is recorded; the machine's invariants (10_state.md R36, R37); and the duties of
the reader and the host as predicates of one sample (70_reset_and_hazards.md R214, R220 to R230, R233). -/

namespace Sys2Proof.Machine

/-- The invariants of R37 with the range of R28, which hold while `Fault` is empty. -/
structure State.Inv (s : State) : Prop where
  /-- (I-1) `TmrRun = 1` implies `Cnt >= 1`. -/
  timerHoldsBits : s.tmrRun = true → s.cnt ≠ 0#6
  /-- (I-2) `Rdy = 1` implies `Cnt = 0` and `TmrRun = 0`. -/
  readyIsStill : s.rdy = true → s.cnt = 0#6 ∧ s.tmrRun = false
  /-- (I-3) `TxPend = 0`. -/
  nothingPending : s.txPend = false
  /-- (I-4) `Len` is even and `Len <= 62`. -/
  lengthEven : s.len.toNat % 2 = 0 ∧ s.len.toNat ≤ 62
  /-- (I-5), and R28: `TmrCnt < DEADLINE`. -/
  countBelowDeadline : s.tmrCnt < s.params.deadline

/-- Every reachable state satisfies it: no fault is recorded implies the invariants (R37). -/
def State.Reach (s : State) : Prop := s.fault = none → s.Inv

/-- `TmrCnt` is a number of `TMR_W` bits (R28), in every state, a faulted one included. -/
def State.TimerFits (s : State) : Prop := s.tmrCnt < 2 ^ s.params.tmrW

/-- Invariant (b) of R36: the accumulator is zero in all positions from `Cnt` on. -/
def State.AccFits (s : State) : Prop := ∀ i, s.cnt.toNat ≤ i → s.acc.getLsbD i = false

/-- Invariant (c) of R36, last sentence: while `Rdy = 1`, `SR` holds `Len` shifted left by `SpiCnt` places. -/
def State.LengthInShift (s : State) : Prop := s.rdy = true → s.sr = s.len <<< s.spiCnt.toNat

/-- A sample shows a valid pulse to this state (40_sampler.md R101, 30_encoding.md R71). -/
def pulseSeen (p : Pins) (s : State) : Bool := restarts p s

/-- Premise (d) of R214 on the first sample after reset: idle lines and an idle clock. -/
def startPremise (p : Pins) : Bool := p.d1 && p.d0 && !p.sck

/-! ### The host's transfer (R220, R221) -/

/-- How far the host is with fetching a frame, as an observer of the ports follows it. -/
inductive Fetch where
  /-- It is not fetching: no frame has been announced since the last pulse, or it has not started on the one announced. -/
  | waiting
  /-- It has started, and `left` falling edges of the length byte and the payload bytes are still to come; with none left
  the frame is fetched, and what it clocks further reads zeros (R233). -/
  | under (left : Nat)
  deriving DecidableEq, Repr

/-- The falling edges of one transfer: the length byte and the payload bytes that `len` announces (R221). -/
def transferEdges (len : Byte) : Nat := 8 * (1 + payloadBytes len.toNat)

/-- A falling edge starts a transfer of the announced length `len`, or brings the one under way one edge on. -/
def Fetch.edge (len : Byte) : Fetch → Fetch
  | .waiting => .under (transferEdges len - 1)
  | .under left => .under (left - 1)

/-- The transfer after a tick on the sample `p` in the state `s`: reset and a pulse end it, a falling edge starts it or brings it
on. -/
def Fetch.after (f : Fetch) (p : Pins) (s : State) : Fetch :=
  if p.rst || pulseSeen p s then .waiting
  else if sckFalls p s then f.edge s.len
  else f

/-- The host's duty of R220: it clocks only in a transfer, which it starts only when it sees `ready` high, with
`SpiCnt = 0`. -/
def clocksOnlyTransfers (f : Fetch) (p : Pins) (s : State) : Prop :=
  p.rst = false → sckFalls p s = true → f ≠ .waiting ∨ (ready s = true ∧ s.spiCnt = 0#3)

/-- The host's duty of R221: a pulse finds no transfer unfinished, and none in the act of clocking. -/
def finishesBeforeNextFrame (f : Fetch) (p : Pins) (s : State) : Prop :=
  p.rst = false → pulseSeen p s = true → sckFalls p s = false ∧ (f = .waiting ∨ f = .under 0)

/-- What a host that keeps R220 and R221 makes of the accumulator, for the default `PARITY_CLEAR_INDEX`: held bits stay in
place and lie below `Cnt` (R36 (b)), a staged frame lies below its payload length, and a transfer drains (R222). -/
structure State.FetchInv (s : State) (f : Fetch) : Prop where
  heldFits : s.cnt ≠ 0#6 → s.AccFits
  heldUnread : s.cnt ≠ 0#6 → f = .waiting
  stagedFits : s.rdy = true → f = .waiting → ∀ i, payloadBits s.len.toNat ≤ i → s.acc.getLsbD i = false
  waitingClean : f = .waiting → s.rdy = false → s.cnt = 0#6 → s.acc = 0#64
  /-- Beyond the payload bytes still to be loaded the accumulator is zero. -/
  leftFits : ∀ left, f = .under left → ∀ i, 8 * ((left + 7) / 8 - 1) ≤ i → s.acc.getLsbD i = false
  /-- The edges left and the edges of the current byte done make whole bytes (R224). -/
  leftAligned : ∀ left, f = .under left → left ≠ 0 → (left + s.spiCnt.toNat) % 8 = 0

/-! ### Duties at a pulse -/

/-- The duty of R222: the first pulse of a frame finds `Rdy = 1` (the override clears) or a drained accumulator. -/
def startsOnDrained (p : Pins) (s : State) : Prop :=
  pulseSeen p s = true → s.cnt = 0#6 → s.rdy = false → s.acc = 0#64

/-- The reader's duty of R230: a frame has fewer than 64 pulses. -/
def fewerThan64 (p : Pins) (s : State) : Prop :=
  pulseSeen p s = true → pulseOverflows s = false

/-- Two states agree on what frames are made of: the count, the staged length, the timer, the sampled lines, the fault and
the parameters (42_serializer.md R152: the serializer writes none of them). -/
structure State.FramingAgrees (a b : State) : Prop where
  cnt : a.cnt = b.cnt
  len : a.len = b.len
  tmrRun : a.tmrRun = b.tmrRun
  tmrCnt : a.tmrCnt = b.tmrCnt
  linePrev : a.linePrev = b.linePrev
  params : a.params = b.params

/-- Two states that differ only in `Len`, in a stopped `TmrCnt`, or in `TxPend` (92_eei_decisions.md D18). -/
structure State.Alike (a b : State) : Prop where
  cnt : a.cnt = b.cnt
  acc : a.acc = b.acc
  rdy : a.rdy = b.rdy
  sr : a.sr = b.sr
  spiCnt : a.spiCnt = b.spiCnt
  tmrRun : a.tmrRun = b.tmrRun
  tmrCnt : a.tmrRun = true → a.tmrCnt = b.tmrCnt
  linePrev : a.linePrev = b.linePrev
  sckPrev : a.sckPrev = b.sckPrev
  fault : a.fault = b.fault
  params : a.params = b.params
  inputs : a.inputs = b.inputs
  tickNo : a.tickNo = b.tickNo

/-- A state in which a frame may begin: nothing held, lines idle, no fault (44_lifecycle.md R160, phase IDLE; premise of
30_encoding.md R93). -/
structure State.FreshIdle (s : State) : Prop where
  noFault : s.fault = none
  linesIdle : s.linePrev = LinePair.HH
  notReady : s.rdy = false
  noBits : s.cnt = 0#6
  accEmpty : s.acc = 0#64

/-- A sample without reset and with idle lines: the reader is silent and no pulse is under way. -/
def silent (p : Pins) : Bool := !p.rst && (linesOf p == LinePair.HH)

end Sys2Proof.Machine
end

