-- ==== Sys2Proof/Certificates/Slice0/Obligations.lean ====
section
/-! DEFINITION. The statements for the provers, from the spec's numbered rules: results and frames of the operations,
encodings, the tick, invariants, the event level, and whole-machine rules. A record update states the frame of an operation
whole: every field not named in it is unchanged. `params`, `inputs` and `tickNo` are the model's own fields (log entries 2, 4),
and `nextSample` is the sample that the outside world drives at the next tick. -/

open Sys2Proof Sys2Proof.Machine

/-! ## The operations: result, frame, completion, and the words that select them -/

/-- 40_sampler.md R102, R104: `SAMPLE.BIT0` counts and restarts the timer, writes no accumulator bit, overrides a stale
frame, and faults on the 64th pulse only. -/
def Obligations.SampleBit0CountsAndRestartsTimer : Prop :=
  (∀ (stop : Config.IdleStopSet) (prev : LinePair), prev ≠ LinePair.HL →
    decode stop (lineWord prev LinePair.HL) = .op (.sampleBit0 prev)) ∧
  ∀ (prev : LinePair) (s : State), s.fault = none →
    (s.rdy = false → s.cnt ≠ 63#6 →
      exec (.sampleBit0 prev) s =
        .next { s with cnt := s.cnt + 1#6, tmrRun := true, tmrCnt := 0, linePrev := LinePair.HL }) ∧
    (s.rdy = true →
      exec (.sampleBit0 prev) s =
        .next { s with
          rdy := false, acc := 0#64, cnt := 1#6, tmrRun := true, tmrCnt := 0, linePrev := LinePair.HL }) ∧
    (s.rdy = false → s.cnt = 63#6 → exec (.sampleBit0 prev) s = .fault .counterOverflow)

/-- 40_sampler.md R103, R104: `SAMPLE.BIT1` also sets the accumulator bit at the count after the override. -/
def Obligations.SampleBit1SetsBitAndRestartsTimer : Prop :=
  (∀ (stop : Config.IdleStopSet) (prev : LinePair), prev ≠ LinePair.LH →
    decode stop (lineWord prev LinePair.LH) = .op (.sampleBit1 prev)) ∧
  ∀ (prev : LinePair) (s : State), s.fault = none →
    (s.rdy = false → s.cnt ≠ 63#6 →
      exec (.sampleBit1 prev) s =
        .next { s with
          acc := s.acc ||| 1#64 <<< s.cnt.toNat, cnt := s.cnt + 1#6, tmrRun := true, tmrCnt := 0,
          linePrev := LinePair.LH }) ∧
    (s.rdy = true →
      exec (.sampleBit1 prev) s =
        .next { s with
          rdy := false, acc := 1#64, cnt := 1#6, tmrRun := true, tmrCnt := 0, linePrev := LinePair.LH }) ∧
    (s.rdy = false → s.cnt = 63#6 → exec (.sampleBit1 prev) s = .fault .counterOverflow)

/-- 20_memory.md R52, bit by bit: `SAMPLE.BIT1` sets the position `Cnt` and leaves every other accumulator bit, and
`SAMPLE.BIT0` leaves every bit, a stale 1 at `Cnt` included. -/
def Obligations.AppendWritesOnlyTheCountPosition : Prop :=
  ∀ (prev : LinePair) (s : State), s.fault = none → s.rdy = false → s.cnt ≠ 63#6 →
    (∃ t, exec (.sampleBit1 prev) s = .next t ∧
      ∀ i, t.acc.getLsbD i = (s.acc.getLsbD i || decide (i = s.cnt.toNat))) ∧
    ∃ t, exec (.sampleBit0 prev) s = .next t ∧ ∀ i, t.acc.getLsbD i = s.acc.getLsbD i

/-- 40_sampler.md R106 and 60_exceptions.md R190: the 64th pulse, and only it, raises the fault, the tick records it and
stores the lines, and while it stands no operation but RESET has a meaning (its form, the standing fault as the answer,
is log entry 7) and no tick but a reset changes the block. -/
def Obligations.CounterOverflowIsRaisedRecordedAndStands : Prop :=
  (∀ (prev : LinePair) (s : State), s.fault = none →
    (exec (.sampleBit0 prev) s = .fault .counterOverflow ↔ s.cnt = 63#6 ∧ s.rdy = false) ∧
    (exec (.sampleBit1 prev) s = .fault .counterOverflow ↔ s.cnt = 63#6 ∧ s.rdy = false)) ∧
  (∀ s : State, s.fault = none → (nextSample s).rst = false → pulseSeen (nextSample s) s = true → s.cnt = 63#6 →
    s.rdy = false →
    ∃ t, step s = .next t ∧ t.fault = some .counterOverflow ∧ t.linePrev = linesOf (nextSample s)) ∧
  (∀ (i : Instr) (s : State) (f : Fault), s.fault = some f → i ≠ .reset → exec i s = .fault f) ∧
  ∀ s : State, s.fault ≠ none → (nextSample s).rst = false → step s = .next (takeSample s)

/-- 40_sampler.md R107: the both-lines-idle stop, which transitions it holds, and that bits held with the timer stopped are
phase SUSPENDED. That the four transitions outside the set are `SAMPLE.NOISE` is the model's reading of D4 (log entry 13). -/
def Obligations.SampleIdleStopsTimerAndKeepsBits : Prop :=
  (∀ (stop : Config.IdleStopSet) (move : QuietMove),
    decode stop (lineWord move.prev move.cur) =
      .op (if stop.has move = true then .sampleIdle move else .sampleNoise move)) ∧
  (∀ move : QuietMove, Config.defaultIdleStop.has move = true ↔ move = .llToHh) ∧
  ∀ (move : QuietMove) (s : State), s.fault = none →
    exec (.sampleIdle move) s = .next { s with tmrRun := false, linePrev := move.cur } ∧
    (s.rdy = false → s.cnt ≠ 0#6 → phase { s with tmrRun := false, linePrev := move.cur } = .suspended)

/-- 40_sampler.md R108: the trailing edges store the sample and do nothing else. -/
def Obligations.TrailingEdgesChangeNothing : Prop :=
  (∀ stop : Config.IdleStopSet, decode stop 0x0B#8 = .op .sampleEnd0 ∧ decode stop 0x07#8 = .op .sampleEnd1) ∧
  ∀ s : State, s.fault = none →
    exec .sampleEnd0 s = .next { s with linePrev := LinePair.HH } ∧
    exec .sampleEnd1 s = .next { s with linePrev := LinePair.HH }

/-- 40_sampler.md R109: a transition into both-lines-low stores the sample and does nothing else. -/
def Obligations.NoiseChangesNothing : Prop :=
  (∀ move : QuietMove, move.cur = LinePair.LL →
    decode Config.defaultIdleStop (lineWord move.prev move.cur) = .op (.sampleNoise move)) ∧
  ∀ (move : QuietMove) (s : State), s.fault = none →
    exec (.sampleNoise move) s = .next { s with linePrev := move.cur }

/-- 41_frame_timer.md R122: `TMR.TICK` adds one to the count, and is the timer's operation exactly below the deadline (for a
count in its range, R28 and invariant I-5; what a count outside it does is `TimerCountStaysInItsWidth`). -/
def Obligations.TimerTickCountsBelowDeadline : Prop :=
  (∀ stop : Config.IdleStopSet, decode stop 0x40#8 = .op .tmrTick) ∧
  (∀ s : State, s.fault = none → s.tmrCnt < s.params.deadline →
    exec .tmrTick s = .next { s with tmrCnt := s.tmrCnt + 1 }) ∧
  ∀ (restarted : Bool) (s : State), s.tmrCnt < s.params.deadline →
    (timerWord restarted s = some 0x40#8 ↔
      s.tmrRun = true ∧ restarted = false ∧ s.tmrCnt + 1 < s.params.deadline)

/-- 00_scope.md R7, decision D11, 10_state.md R28: every parameter value has `DEADLINE < 2 ^ TMR_W`, and every deadline and width
so related are some parameter value; the count is a number of `TMR_W` bits in every state that a step gives from one where it is,
a faulted one included. That an increment outside the count's range wraps in the width is the model's reading (log entry 3). -/
def Obligations.TimerCountStaysInItsWidth : Prop :=
  (∀ p : Config.Params, p.deadline < 2 ^ p.tmrW) ∧
  (∀ (p : Config.Params) (d w : Nat), 1 ≤ d → d < 2 ^ w →
    ∃ q : Config.Params, q.deadline = d ∧ q.tmrW = w ∧ q.clockHz = p.clockHz ∧ q.idleStop = p.idleStop ∧
      q.clearIndex = p.clearIndex) ∧
  (∀ s : State, s.fault = none →
    exec .tmrTick s = .next { s with tmrCnt := (s.tmrCnt + 1) % 2 ^ s.params.tmrW }) ∧
  ∀ s t : State, s.TimerFits → step s = .next t → t.TimerFits

/-- 41_frame_timer.md R125: a malformed frame is dropped, `Rdy`, `Len`, `SR`, `SpiCnt` untouched. -/
def Obligations.DiscardDropsOddFrame : Prop :=
  (∀ stop : Config.IdleStopSet,
    decode stop 0x51#8 = .op (.tmoDiscard 0b01#2) ∧ decode stop 0x53#8 = .op (.tmoDiscard 0b11#2)) ∧
  ∀ (cl : BitVec 2) (s : State), s.fault = none →
    exec (.tmoDiscard cl) s = .next { s with tmrRun := false, cnt := 0#6, acc := 0#64 } ∧
    (s.rdy = false → phase { s with tmrRun := false, cnt := 0#6, acc := 0#64 } = .idle)

/-- 41_frame_timer.md R126, R130: a frame of 4 k bits is staged with its accumulator as it is. -/
def Obligations.FinalStagesLengthAndKeepsBits : Prop :=
  (∀ stop : Config.IdleStopSet, decode stop 0x50#8 = .op .tmoFinal) ∧
  ∀ s : State, s.fault = none →
    exec .tmoFinal s =
      .next { s with
        tmrRun := false, len := s.cnt.setWidth 8, sr := s.cnt.setWidth 8, rdy := true, cnt := 0#6 } ∧
    phase { s with
      tmrRun := false, len := s.cnt.setWidth 8, sr := s.cnt.setWidth 8, rdy := true, cnt := 0#6 } = .ready

/-- 41_frame_timer.md R127, R130: a frame of 4 k + 2 bits is stripped, then staged with the count as received. The strip clears
the position that `PARITY_CLEAR_INDEX` gives for the count (00_scope.md R7, R128), whatever that open parameter is, and `Cnt - 2`
by default. Where the count is not 2 modulo 4 only the accumulator is open (log entry 8), and every other effect is the same. -/
def Obligations.StripThenStagesReceivedLength : Prop :=
  (∀ stop : Config.IdleStopSet, decode stop 0x52#8 = .op .tmoStrip) ∧
  ∀ s : State, s.fault = none →
    exec .tmoStrip s =
      .next { s with
        tmrRun := false, acc := stripped s.params s.acc s.cnt, len := s.cnt.setWidth 8,
        sr := s.cnt.setWidth 8, rdy := true, cnt := 0#6 } ∧
    (s.cnt.toNat % 4 = 2 → ∀ k : Fin 64, s.params.clearIndex[s.cnt.toNat / 4]? = some k →
      stripped s.params s.acc s.cnt = (s.acc >>> 1) &&& ~~~(1#64 <<< k.val)) ∧
    (s.params.clearIndex = Config.defaultClearIndex → s.cnt.toNat % 4 = 2 →
      stripped s.params s.acc s.cnt = (s.acc >>> 1) &&& ~~~(1#64 <<< (s.cnt.toNat - 2)))

/-- 41_frame_timer.md R128 in words: for a frame whose bits lie below its count, the strip moves received bits 1 to n - 2
down by one and leaves zeros everywhere else. -/
def Obligations.StripKeepsInnerBitsInOrder : Prop :=
  ∀ s : State, s.fault = none → s.params.clearIndex = Config.defaultClearIndex → s.cnt.toNat % 4 = 2 → s.AccFits →
    ∃ t, exec .tmoStrip s = .next t ∧
      ∀ i, t.acc.getLsbD i = (decide (i + 2 < s.cnt.toNat) && s.acc.getLsbD (i + 1))

/-- 42_serializer.md R143: a clock edge inside a byte shifts `SR` and counts, and touches nothing of the decoder. That the
operation itself leaves `SckPrev` low is the model's reading (log entry 10). -/
def Obligations.SpiShiftMovesOneBit : Prop :=
  (∀ (stop : Config.IdleStopSet) (idx : BitVec 3), idx ≠ 7#3 → decode stop (spiWord idx) = .op (.spiShift idx)) ∧
  ∀ (idx : BitVec 3) (s : State), s.fault = none →
    exec (.spiShift idx) s = .next { s with sr := s.sr <<< 1, spiCnt := s.spiCnt + 1#3, sckPrev := false }

/-- 42_serializer.md R144, R145: the edge that ends a byte lowers `Rdy`, loads the reversed low byte, and drains it. That the
operation itself leaves `SckPrev` low is the model's reading (log entry 10). -/
def Obligations.SpiByteLoadsNextByteAndDrains : Prop :=
  (∀ stop : Config.IdleStopSet, decode stop 0x87#8 = .op .spiByte) ∧
  ∀ s : State, s.fault = none →
    exec .spiByte s =
      .next { s with
        sr := rev8 (s.acc.extractLsb' 0 8), acc := s.acc >>> 8, rdy := false, txPend := false, spiCnt := 0#3,
        sckPrev := false }

/-- 42_serializer.md R146: the bit-order corrector bit by bit, that it is an involution, and the values that the rule
gives. -/
def Obligations.Rev8ReversesBits : Prop :=
  (∀ (b : Byte) (i : Nat), i < 8 → (rev8 b).getLsbD i = b.getLsbD (7 - i)) ∧
  (∀ b : Byte, rev8 (rev8 b) = b) ∧
  rev8 0x00#8 = 0x00#8 ∧ rev8 0x01#8 = 0x80#8 ∧ rev8 0x1A#8 = 0x58#8 ∧ rev8 0x4A#8 = 0x52#8 ∧
  rev8 0xA5#8 = 0xA5#8 ∧ rev8 0xF0#8 = 0x0F#8 ∧ rev8 0xFF#8 = 0xFF#8

/-- 70_reset_and_hazards.md R210: RESET, from any state, a faulted one included, sets every element; a tick that samples `rst`
high is a RESET whatever the other inputs are. -/
def Obligations.ResetClearsEveryElement : Prop :=
  (∀ stop : Config.IdleStopSet, decode stop 0xC0#8 = .op .reset) ∧
  ∀ s : State,
    exec .reset s =
      .next { s with
        cnt := 0#6, acc := 0#64, len := 0#8, rdy := false, sr := 0#8, spiCnt := 0#3, txPend := false, tmrRun := false,
        tmrCnt := 0, linePrev := LinePair.HH, sckPrev := false, fault := none } ∧
    ∀ p : Pins, p.rst = true → tick p s = exec .reset s

/-- 10_state.md R38: the reset values and the phase after reset. -/
def Obligations.ResetStateHasSpecifiedValues : Prop :=
  State.reset.cnt = 0 ∧ State.reset.acc = 0#64 ∧ State.reset.len = 0#8 ∧ ready State.reset = false ∧
  State.reset.sr = 0x00#8 ∧ dout State.reset = false ∧ State.reset.spiCnt = 0#3 ∧ State.reset.tmrRun = false ∧
  State.reset.tmrCnt = 0 ∧ State.reset.txPend = false ∧ State.reset.linePrev = 0b11#2 ∧
  State.reset.sckPrev = false ∧ State.reset.fault = none ∧ phase State.reset = .idle

/-! ## Encodings -/

/-- 30_encoding.md R84, R85: decoding the word of a well-formed instruction gives it back with every operand, for every
idle-stop set. -/
def Obligations.DecodeOfEncodeIsIdentity : Prop :=
  ∀ (stop : Config.IdleStopSet) (i : Instr), i.wf stop = true → decode stop (encode i) = .op i

/-- 30_encoding.md R84, R85, the other direction: every word that decodes is the word of what it decodes to, which is
well-formed; so no two instructions share a word. -/
def Obligations.EncodeOfDecodeIsIdentity : Prop :=
  ∀ (stop : Config.IdleStopSet) (w : DispatchWord) (i : Instr), decode stop w = .op i →
    encode i = w ∧ i.wf stop = true

/-- 30_encoding.md R87: the reserved words, each by its group, for every idle-stop set, and no others; the machine refuses to
run one, and no part of a tick forms one. -/
def Obligations.ReservedWordsAreExactlyThese : Prop :=
  (∀ (stop : Config.IdleStopSet) (w : DispatchWord),
    (decode stop w = .reserved .noTransition ↔ w = 0x00#8 ∨ w = 0x05#8 ∨ w = 0x0A#8 ∨ w = 0x0F#8) ∧
    (decode stop w = .reserved .lineHighBits ↔ 0x10 ≤ w.toNat ∧ w.toNat ≤ 0x3F) ∧
    (decode stop w = .reserved .timerFields ↔
      (0x41 ≤ w.toNat ∧ w.toNat ≤ 0x4F) ∨ (0x54 ≤ w.toNat ∧ w.toNat ≤ 0x7F)) ∧
    (decode stop w = .reserved .spiFields ↔ 0x88 ≤ w.toNat ∧ w.toNat ≤ 0xBF) ∧
    (decode stop w = .reserved .resetFields ↔ 0xC1 ≤ w.toNat ∧ w.toNat ≤ 0xFF)) ∧
  (∀ (w : DispatchWord) (s : State) (r : Reserved), decode s.params.idleStop w = .reserved r →
    runWord w s = .refused (.reservedWord r)) ∧
  ∀ (w : DispatchWord) (s : State) (p : Pins) (restarted : Bool),
    samplerWord p s = some w ∨ timerWord restarted s = some w ∨ serialWord p s = some w →
    ∃ i, decode s.params.idleStop w = .op i

/-- 30_encoding.md R88: the twelve legal `LINE` words for the default idle-stop set. -/
def Obligations.LegalLineWordsDecode : Prop :=
  decode Config.defaultIdleStop 0x0E#8 = .op (.sampleBit0 LinePair.HH) ∧
  decode Config.defaultIdleStop 0x0D#8 = .op (.sampleBit1 LinePair.HH) ∧
  decode Config.defaultIdleStop 0x0C#8 = .op (.sampleNoise .hhToLl) ∧
  decode Config.defaultIdleStop 0x0B#8 = .op .sampleEnd0 ∧
  decode Config.defaultIdleStop 0x09#8 = .op (.sampleBit1 LinePair.HL) ∧
  decode Config.defaultIdleStop 0x08#8 = .op (.sampleNoise .hlToLl) ∧
  decode Config.defaultIdleStop 0x07#8 = .op .sampleEnd1 ∧
  decode Config.defaultIdleStop 0x06#8 = .op (.sampleBit0 LinePair.LH) ∧
  decode Config.defaultIdleStop 0x04#8 = .op (.sampleNoise .lhToLl) ∧
  decode Config.defaultIdleStop 0x03#8 = .op (.sampleIdle .llToHh) ∧
  decode Config.defaultIdleStop 0x02#8 = .op (.sampleBit0 LinePair.LL) ∧
  decode Config.defaultIdleStop 0x01#8 = .op (.sampleBit1 LinePair.LL)

/-- 30_encoding.md R85, R86: for the default idle-stop set the decoder and the opcode table agree on every word: a reserved word
selects no row, another word the row of its instruction. -/
def Obligations.DecoderAgreesWithOpcodeTable : Prop :=
  ∀ w : DispatchWord,
    selectRow w = match decode Config.defaultIdleStop w with
      | .op i => some i.row
      | .reserved _ => none

/-- 30_encoding.md R85, R86: the word of every well-formed instruction lies in its own row and is none of the four words that no
row may catch. -/
def Obligations.EncodedWordLiesInOwnRow : Prop :=
  ∀ i : Instr, Sys2Proof.Laws.TableRow.Statement i

/-! ## The tick -/

/-- 60_exceptions.md R190: a step is the tick on the next sample; each part runs exactly the instruction that its word decodes
to, in the order sampler, timer, serializer, and `SckPrev` follows. -/
def Obligations.StepRunsDecodedInstructions : Prop :=
  (∀ (w : DispatchWord) (i : Instr) (s : State), decode s.params.idleStop w = .op i →
    runPart (some w) s = exec i s) ∧
  (∀ s : State, runPart none s = .next s) ∧
  ∀ (s : State) (p : Pins) (u : State), p = nextSample s → u = takeSample s →
    (p.rst = true → step s = exec .reset u) ∧
    (p.rst = false → u.fault ≠ none → step s = .next u) ∧
    (p.rst = false → u.fault = none →
      (∀ f, runPart (samplerWord p u) u = .fault f → step s = .next (recordFault f (linesOf p) u)) ∧
      ∀ u1, runPart (samplerWord p u) u = .next u1 →
        step s =
          andThen (runPart (timerWord (restarts p u) u1) u1) fun u2 =>
            andThen (runPart (serialWord p u2) u2) fun u3 => .next { u3 with sckPrev := p.sck })

/-- 40_sampler.md R101, 41_frame_timer.md R122, R123, R124, 42_serializer.md R142: when each part of a tick forms a word, and which. -/
def Obligations.TriggersFormTheirWords : Prop :=
  ∀ (p : Pins) (s : State),
    (linesOf p ≠ s.linePrev → samplerWord p s = some (0b0000#4 ++ s.linePrev ++ linesOf p)) ∧
    (linesOf p = s.linePrev → samplerWord p s = none) ∧
    (s.tmrRun = true → s.tmrCnt + 1 = s.params.deadline →
      timerWord false s = some (0b010100#6 ++ s.cnt.extractLsb' 0 2)) ∧
    (s.tmrRun = true → s.tmrCnt + 1 ≠ s.params.deadline → timerWord false s = some 0x40#8) ∧
    timerWord true s = none ∧
    (s.tmrRun = false → timerWord false s = none) ∧
    (s.sckPrev = true → p.sck = false → serialWord p s = some (0b10000#5 ++ s.spiCnt)) ∧
    (s.sckPrev = false ∨ p.sck = true → serialWord p s = none)

/-- 60_exceptions.md R190, its totality: from every state, and so for every input, the step gives a next state. -/
def Obligations.StepIsTotal : Prop :=
  ∀ s : State, ∃ t, step s = .next t

/-- 40_sampler.md R113, 42_serializer.md R142 and invariant I-6: after a tick without reset and without a standing fault
`LinePrev` is the sampled pair, a tick that raises the fault included, and `SckPrev` the sampled clock. -/
def Obligations.LatchesHoldTheLatestSample : Prop :=
  ∀ s t : State, step s = .next t → (nextSample s).rst = false → s.fault = none →
    t.linePrev = linesOf (nextSample s) ∧ (t.fault = none → t.sckPrev = (nextSample s).sck)

/-- 60_exceptions.md R191: in the tick in which the count would reach the deadline a valid pulse wins, an idle stop wins, and a
trailing edge, noise or no transition lets the timeout run; whatever the serial clock does. -/
def Obligations.PulseBeatsDeadlineInTheSameTick : Prop :=
  ∀ (p : Pins) (s : State), p.rst = false → s.fault = none → s.tmrRun = true →
    s.tmrCnt + 1 = s.params.deadline →
    (pulseSeen p s = true → pulseOverflows s = false →
      ∃ t, tick p s = .next t ∧ t.tmrRun = true ∧ t.tmrCnt = 0 ∧ t.rdy = false ∧ t.len = s.len ∧
        t.cnt = (if s.rdy = true then 1#6 else s.cnt + 1#6)) ∧
    (∀ move : QuietMove, move.prev = s.linePrev → move.cur = linesOf p → s.params.idleStop.has move = true →
      ∃ t, tick p s = .next t ∧ t.tmrRun = false ∧ t.tmrCnt = s.tmrCnt ∧ t.cnt = s.cnt ∧ t.len = s.len) ∧
    (pulseSeen p s = false →
      (∀ move : QuietMove, move.prev = s.linePrev → move.cur = linesOf p → s.params.idleStop.has move = false) →
      ∃ t, tick p s = .next t ∧ t.tmrRun = false ∧ t.cnt = 0#6 ∧
        t.len = (if s.cnt.toNat % 2 = 0 then s.cnt.setWidth 8 else s.len))

/-- 60_exceptions.md R192: a finalization (with or without a strip) and a falling edge of `sck` in one tick: the serializer
shifts the length just loaded, and at a byte boundary replaces it by the first payload byte and lowers `Rdy` at once. -/
def Obligations.FinalizationMeetsSerialEdge : Prop :=
  ∀ (p : Pins) (s s1 : State) (a : BitVec 64), p.rst = false → s.fault = none → s.sckPrev = true → p.sck = false →
    runPart (samplerWord p s) s = .next s1 → restarts p s = false → s1.tmrRun = true →
    s1.tmrCnt + 1 = s1.params.deadline → s1.cnt.toNat % 2 = 0 →
    a = (if s1.cnt.toNat % 4 = 2 then stripped s1.params s1.acc s1.cnt else s1.acc) →
    ∃ t, tick p s = .next t ∧ t.cnt = 0#6 ∧ t.tmrRun = false ∧ t.len = s1.cnt.setWidth 8 ∧
      (s.spiCnt ≠ 7#3 → t.rdy = true ∧ t.sr = s1.cnt.setWidth 8 <<< 1 ∧ t.acc = a ∧ t.spiCnt = s.spiCnt + 1#3) ∧
      (s.spiCnt = 7#3 → t.rdy = false ∧ t.sr = rev8 (a.extractLsb' 0 8) ∧ t.acc = a >>> 8 ∧ t.spiCnt = 0#3)

/-- 60_exceptions.md R193: a superseding pulse and a byte-complete in one tick: the new frame's first bit leaves the
accumulator while `Cnt` stays 1. -/
def Obligations.SupersedingPulseMeetsByteComplete : Prop :=
  ∀ (p : Pins) (s : State), p.rst = false → s.fault = none → s.rdy = true → pulseSeen p s = true →
    s.sckPrev = true → p.sck = false → s.spiCnt = 7#3 →
    ∃ t, tick p s = .next t ∧ t.cnt = 1#6 ∧ t.acc = 0#64 ∧ t.rdy = false ∧ t.tmrRun = true ∧
      t.sr = (if linesOf p = LinePair.LH then 0x80#8 else 0x00#8)

/-- 70_reset_and_hazards.md R215: the first tick after reset with the premise of idle inputs not met, for every
implementation. -/
def Obligations.FirstTickAfterResetTakesLowLinesAsTransition : Prop :=
  ∀ (prm : Config.Params) (p : Pins) (rest : List Pins) (n : Nat), p.rst = false →
    ∃ t, step (State.resetWith prm (p :: rest) n) = .next t ∧ t.spiCnt = 0#3 ∧ t.sckPrev = p.sck ∧
      (linesOf p = LinePair.HL → t.cnt = 1#6 ∧ t.acc = 0#64 ∧ t.tmrRun = true) ∧
      (linesOf p = LinePair.LH → t.cnt = 1#6 ∧ t.acc = 1#64 ∧ t.tmrRun = true) ∧
      (linesOf p = LinePair.LL → t.cnt = 0#6 ∧ t.acc = 0#64 ∧ t.tmrRun = false ∧ t.linePrev = LinePair.LL) ∧
      (linesOf p = LinePair.HH → t.cnt = 0#6 ∧ t.acc = 0#64 ∧ t.tmrRun = false) ∧
      (startPremise p = true → t = State.resetWith prm rest (n + 1))

/-- The model's own placing of a word (log entry 5): the very next step after placing a word that decodes to `i` answers what
`i` answers. -/
def Obligations.PlacedWordRunsAtTheNextStep : Prop :=
  ∀ (s t : State) (w : DispatchWord) (i : Instr), decode s.params.idleStop w = .op i →
    exec i (takeSample (placeWord w s)) = .next t → step (s.withFetchWord 8 w.toNat) = .next t

/-! ## Invariants -/

/-- 10_state.md R37, R28, R36: the invariants hold at reset, that of a host that has not started a transfer included. -/
def Obligations.InvariantsHoldAtReset : Prop :=
  State.reset.Inv ∧ State.reset.TimerFits ∧ State.reset.FetchInv .waiting

/-- 10_state.md R37, R28: every step from a state that meets the invariants, or that carries a fault, gives such a state. -/
def Obligations.EveryStepKeepsInvariants : Prop :=
  ∀ s t : State, s.Reach → step s = .next t → t.Reach

/-- 10_state.md R36 (b): while bits are held the accumulator is zero from `Cnt` on; every step keeps it under the duty of
70_reset_and_hazards.md R222, whatever the host clocks. -/
def Obligations.EveryStepKeepsAccumulatorBelowCount : Prop :=
  ∀ s t : State, s.fault = none → (s.cnt ≠ 0#6 → s.AccFits) → startsOnDrained (nextSample s) s →
    step s = .next t → t.fault = none → t.cnt ≠ 0#6 → t.AccFits

/-- 70_reset_and_hazards.md R230: under the reader's duty of fewer than 64 pulses a frame, no step records a fault. -/
def Obligations.NoFaultWithFewerThan64Pulses : Prop :=
  ∀ s t : State, s.fault = none → fewerThan64 (nextSample s) s → step s = .next t → t.fault = none

/-- 70_reset_and_hazards.md R220: under the host's duty to clock only in a transfer that it started on a frame announced, with
`SpiCnt = 0`, no transfer is under way while bits are held, and the bits held stay in place as long as the frame goes on. -/
def Obligations.HeldBitsStayWhileHostKeepsItsDuty : Prop :=
  ∀ (s t : State) (f : Fetch), s.Inv → s.fault = none → (s.cnt ≠ 0#6 → f = .waiting) →
    clocksOnlyTransfers f (nextSample s) s → step s = .next t → t.fault = none → t.cnt ≠ 0#6 →
    f.after (nextSample s) s = .waiting ∧
    (s.cnt ≠ 0#6 → ∀ i, i < s.cnt.toNat → t.acc.getLsbD i = s.acc.getLsbD i)

/-- 70_reset_and_hazards.md R220, R221, R222 and 10_state.md R36 (b) over whole transfers: a host that clocks only in transfers,
each started on an announced frame with `SpiCnt = 0` and finished before the next frame, always drains what it fetches, so every
frame starts on a drained accumulator; its last payload byte, with the accumulator already zero, included. -/
def Obligations.EveryStepKeepsFetchInvariant : Prop :=
  (∀ (s t : State) (f : Fetch), s.fault = none → s.Inv → s.params.clearIndex = Config.defaultClearIndex → s.FetchInv f →
    clocksOnlyTransfers f (nextSample s) s → finishesBeforeNextFrame f (nextSample s) s →
    step s = .next t → t.fault = none → t.FetchInv (f.after (nextSample s) s)) ∧
  ∀ (s : State) (f : Fetch) (p : Pins), s.FetchInv f → finishesBeforeNextFrame f p s → p.rst = false →
    startsOnDrained p s

/-- 10_state.md R36 (c): while `Rdy` stays 1 the staged frame stays as the finalization left it. -/
def Obligations.StagedFrameStaysWhileReady : Prop :=
  ∀ s t : State, s.fault = none → s.Inv → step s = .next t → t.fault = none → s.rdy = true → t.rdy = true →
    t.acc = s.acc ∧ t.len = s.len ∧ t.cnt = s.cnt

/-- 10_state.md R36, last sentence: while `Rdy = 1`, `SR` is `Len` shifted left by `SpiCnt`, provided `SpiCnt` was 0 at the
finalization; every step keeps it. -/
def Obligations.ShiftRegisterHoldsShiftedLengthWhileReady : Prop :=
  ∀ s t : State, s.fault = none → s.Inv → s.LengthInShift → (s.rdy = false → s.spiCnt = 0#3) →
    step s = .next t → t.fault = none → t.LengthInShift

/-- 70_reset_and_hazards.md R214 (a): no step changes the implementation's parameters. -/
def Obligations.ParametersNeverChange : Prop :=
  ∀ s t : State, step s = .next t → t.params = s.params

/-! ## Whole-machine rules -/

/-- 41_frame_timer.md R120: in a tick that ends without a fault only a valid pulse starts the timer, and only reset, an idle
stop, or its own deadline stops it. -/
def Obligations.OnlyPulsesStartAndOnlyThreeThingsStopTheTimer : Prop :=
  ∀ s t : State, s.fault = none → step s = .next t → t.fault = none →
    (s.tmrRun = false → t.tmrRun = true →
      (nextSample s).rst = false ∧ pulseSeen (nextSample s) s = true) ∧
    (s.tmrRun = true → t.tmrRun = false →
      (nextSample s).rst = true ∨
      (∃ move : QuietMove, move.prev = s.linePrev ∧ move.cur = linesOf (nextSample s) ∧
        s.params.idleStop.has move = true) ∨
      (pulseSeen (nextSample s) s = false ∧ s.tmrCnt + 1 = s.params.deadline))

/-- 10_state.md R24: only the timeout of an even count raises `ready`, and only reset, a valid pulse, or the end of a byte
lowers it. -/
def Obligations.ReadyRisesAndFallsOnlyAsListed : Prop :=
  ∀ s t : State, s.fault = none → step s = .next t → t.fault = none →
    (ready s = false → ready t = true →
      s.tmrRun = true ∧ s.tmrCnt + 1 = s.params.deadline ∧ pulseSeen (nextSample s) s = false ∧
        s.cnt.toNat % 2 = 0) ∧
    (ready s = true → ready t = false →
      (nextSample s).rst = true ∨ pulseSeen (nextSample s) s = true ∨
        (sckFalls (nextSample s) s = true ∧ s.spiCnt = 7#3))

/-- 44_lifecycle.md R167: `SpiCnt` advances, modulo 8, on every falling edge of `sck` in every phase, and otherwise only reset
clears it. -/
def Obligations.SpiCountFollowsFallingEdgesAlone : Prop :=
  ∀ s t : State, s.fault = none → step s = .next t → t.fault = none →
    t.spiCnt =
      (if (nextSample s).rst = true then 0#3
        else if sckFalls (nextSample s) s = true then s.spiCnt + 1#3
        else s.spiCnt)

/-- 44_lifecycle.md R161: the transition table, for every operation that the block may form in the state. -/
def Obligations.PhaseTransitionsFollowTheTable : Prop :=
  ∀ (i : Instr) (s t : State), s.Inv → s.fault = none → opEnabled s i = true → exec i s = .next t →
    phase t = phaseAfter s i

/-- 44_lifecycle.md R164: a frame held in SUSPENDED waits there, its count kept, until a valid pulse or reset. -/
def Obligations.SuspendedFrameWaitsForPulseOrReset : Prop :=
  ∀ s t : State, s.Inv → s.fault = none → phase s = .suspended → (nextSample s).rst = false →
    pulseSeen (nextSample s) s = false → step s = .next t →
    phase t = .suspended ∧ t.cnt = s.cnt ∧ t.fault = none

/-- 42_serializer.md R152 and 60_exceptions.md R200 as noninterference: what frames are made of (count, length, timer, lines,
the fault) does not depend on the serial clock, nor on the accumulator, `Rdy`, `SR` or `SpiCnt` that clocking changes. -/
def Obligations.HostClockCannotDisturbFraming : Prop :=
  ∀ a b ta tb : State, a.Inv → b.Inv → a.fault = none → b.fault = none → a.FramingAgrees b →
    (nextSample a).rst = (nextSample b).rst → linesOf (nextSample a) = linesOf (nextSample b) →
    step a = .next ta → step b = .next tb →
    ta.fault = tb.fault ∧ (ta.fault = none → ta.FramingAgrees tb)

/-- 92_eei_decisions.md D18: two states that differ only in `Len`, in a stopped `TmrCnt`, or in `TxPend` show the same ports
now and after every step that leaves no fault, and stay so related. -/
def Obligations.UnobservableStateNeverShows : Prop :=
  ∀ a b : State, a.Alike b →
    ready a = ready b ∧ dout a = dout b ∧
    ∀ ta tb : State, step a = .next ta → step b = .next tb → ta.fault = none →
      ta.Alike tb ∧ ready ta = ready tb ∧ dout ta = dout tb

/-- 00_scope.md R7, decisions D11 and D22, 70_reset_and_hazards.md R234: the two open parameters `TMR_W` and `F_CLK` never show.
Machines alike but for them, in a state that meets the invariants, take every step that leaves no fault alike but for them. -/
def Obligations.OpenWidthAndFrequencyNeverShow : Prop :=
  ∀ (a b ta tb : State) (spare hz : Nat), a.Inv → a.fault = none →
    b = { a with params := { a.params with spareTimerBits := spare, clockHz := hz } } →
    step a = .next ta → step b = .next tb → ta.fault = none →
    tb = { ta with params := { ta.params with spareTimerBits := spare, clockHz := hz } }

/-- 41_frame_timer.md R123 and 70_reset_and_hazards.md R235: with the reader silent the timeout comes when exactly the ticks left
to the deadline have passed, not before, whatever the host clocks; with the host silent too, `ready` then shows whether the
count was even. -/
def Obligations.TimeoutComesExactlyAtDeadline : Prop :=
  ∀ (s : State) (ps rest : List Pins), s.fault = none → s.tmrRun = true → s.linePrev ≠ LinePair.LL →
    s.inputs = ps ++ rest → (∀ p ∈ ps, silent p = true) → 0 < ps.length →
    s.tmrCnt + ps.length = s.params.deadline →
    (∀ k, k < ps.length → ∃ t : State, Host.Core.run core k s = .next t ∧
      t.tmrRun = true ∧ t.cnt = s.cnt ∧ t.tmrCnt = s.tmrCnt + k ∧ t.len = s.len) ∧
    ∃ t : State, Host.Core.run core ps.length s = .next t ∧
      t.tmrRun = false ∧ t.cnt = 0#6 ∧ t.inputs = rest ∧
      t.len = (if s.cnt.toNat % 2 = 0 then s.cnt.setWidth 8 else s.len) ∧
      (s.rdy = false → s.sckPrev = false → (∀ p ∈ ps, p.sck = false) →
        (ready t = true ↔ s.cnt.toNat % 2 = 0))

/-! ## The event level and the byte level -/

/-- 60_exceptions.md R194, 00_scope.md R16: the event-level machine simulates the tick: from states that agree but for time, a
tick that leaves no fault is matched by its events, and the results agree but for time. -/
def Obligations.EventLevelSimulatesTick : Prop :=
  ∀ (p : Pins) (s t u : State), forgetTime u = forgetTime s → tick p s = .next t → t.fault = none →
    ∃ v, runEvents (tickEvents p s) u = .next v ∧ forgetTime v = forgetTime t

/-- 42_serializer.md R150: from `SpiCnt = 0` eight falling edges are `HostByte()`, and `dout` before edge k + 1 is bit 7 - k of
the old `SR`, with `ready` unchanged until the last. That the eight edges leave `SckPrev` low is the model's reading of the
operations (log entry 10). -/
def Obligations.EightEdgesAreOneHostByte : Prop :=
  ∀ s : State, s.fault = none → s.spiCnt = 0#3 →
    runEvents clockByte s = .next (afterHostByte s) ∧
    ∀ k, k < 8 → ∃ u, runEvents (List.replicate k .sckFall) s = .next u ∧
      dout u = s.sr.getLsbD (7 - k) ∧ ready u = ready s

/-- 42_serializer.md R147, 30_encoding.md R75: after k + 1 bytes from `SpiCnt = 0` the next byte that the host reads is the reversal
of accumulator byte k, and from byte 8 on it is zero. -/
def Obligations.PayloadBytesFollowInOrder : Prop :=
  ∀ (s : State) (k : Nat), s.fault = none → s.spiCnt = 0#3 →
    ∃ u, runEvents (List.replicate (k + 1) clockByte).flatten s = .next u ∧
      u.sr = rev8 ((s.acc >>> (8 * k)).extractLsb' 0 8) ∧ u.acc = s.acc >>> (8 * (k + 1)) ∧
      u.rdy = false ∧ u.spiCnt = 0#3 ∧ u.fault = none ∧ (8 ≤ k → u.sr = 0#8)

/-- 70_reset_and_hazards.md R222, 30_encoding.md R77: the length byte and the payload bytes that a host computes from it drain the
accumulator to zero. -/
def Obligations.FullTransferDrainsAccumulator : Prop :=
  ∀ s : State, s.fault = none → s.spiCnt = 0#3 →
    (∀ i, payloadBits s.len.toNat ≤ i → s.acc.getLsbD i = false) →
    ∃ u, runEvents (List.replicate (payloadBytes s.len.toNat + 1) clockByte).flatten s = .next u ∧
      u.acc = 0#64 ∧ u.rdy = false ∧ u.spiCnt = 0#3

/-- 20_memory.md R51: a frame of at most 63 pulses from an idle block leaves bit i of the frame at position i, zeros above, its
length in `Cnt`, and the timer running. -/
def Obligations.FrameBitsStandAtTheirPositions : Prop :=
  ∀ (bits : List Bool) (s : State), s.FreshIdle → bits.length ≤ 63 →
    ∃ t, runEvents (frame bits) s = .next t ∧ t.cnt.toNat = bits.length ∧
      (∀ i, t.acc.getLsbD i = bits.getD i false) ∧
      (bits ≠ [] → t.tmrRun = true) ∧ t.rdy = false ∧ t.linePrev = LinePair.HH ∧ t.fault = none ∧
      t.len = s.len ∧ t.sr = s.sr

/-- 41_frame_timer.md R126, R127, R130 end to end: an even frame of 2 to 62 bits and its timeout leave `ready` high, the length
staged and in `SR`, and exactly the payload bits in the accumulator. -/
def Obligations.EvenFrameIsStagedWithItsPayload : Prop :=
  ∀ (bits : List Bool) (s : State), s.FreshIdle → s.params.clearIndex = Config.defaultClearIndex →
    bits.length % 2 = 0 → 2 ≤ bits.length → bits.length ≤ 62 →
    ∃ t, runEvents (frame bits ++ [.expire]) s = .next t ∧ ready t = true ∧ phase t = .ready ∧
      t.len = BitVec.ofNat 8 bits.length ∧ t.sr = BitVec.ofNat 8 bits.length ∧ t.cnt = 0#6 ∧ t.tmrRun = false ∧
      ∀ i, t.acc.getLsbD i = (payloadOf bits).getD i false

/-- 41_frame_timer.md R134, first property, and R125: an odd frame and its timeout leave no trace. -/
def Obligations.OddFrameLeavesNoTrace : Prop :=
  ∀ (bits : List Bool) (s : State), s.FreshIdle → bits.length % 2 = 1 → bits.length ≤ 63 →
    ∃ t, runEvents (frame bits ++ [.expire]) s = .next t ∧ ready t = false ∧ phase t = .idle ∧
      t.cnt = 0#6 ∧ t.acc = 0#64 ∧ t.len = s.len ∧ t.sr = s.sr

/-- 70_reset_and_hazards.md R227 (scenario C): both lines pulled low and released together stop the countdown and keep all
else, for the default idle-stop set. -/
def Obligations.GlitchSuspendsTheFrame : Prop :=
  ∀ s : State, s.fault = none → s.linePrev = LinePair.HH → s.params.idleStop = Config.defaultIdleStop →
    runEvents glitch s = .next { s with tmrRun := false } ∧
    (s.rdy = false → s.cnt ≠ 0#6 → phase { s with tmrRun := false } = .suspended)
end

