-- ==== Sys2Proof/Laws/Decode.lean ====
section
/-! SUPPORT. What the decoder reads from each word that a tick or an event forms (30_encoding.md R84, R85), and that it never
refuses one. -/

namespace Sys2Proof

/-- A transition always has an operation (R82, R88). -/
theorem lineInstr_isSome (stop : Config.IdleStopSet) {prev cur : LinePair} (h : prev ≠ cur) :
    ∃ i, lineInstr stop prev cur = some i := by
  simp only [lineInstr, if_neg h]
  repeat' split
  all_goals exact ⟨_, rfl⟩

theorem decode_lineWord (stop : Config.IdleStopSet) (prev cur : LinePair) :
    decode stop (lineWord prev cur) =
      match lineInstr stop prev cur with
      | some i => .op i
      | none => .reserved .noTransition := by
  have hsrc : (lineWord prev cur).extractLsb' 6 2 = 0b00#2 := by revert prev cur; decide
  have hz : (lineWord prev cur).extractLsb' 4 2 = 0#2 := by revert prev cur; decide
  have hp : (lineWord prev cur).extractLsb' 2 2 = prev := by revert prev cur; decide
  have hc : (lineWord prev cur).extractLsb' 0 2 = cur := by revert prev cur; decide
  cases hl : lineInstr stop prev cur <;>
    simp only [decode, hsrc, hz, hp, hc, hl, if_true, ne_eq, not_true_eq_false, if_false]

theorem decode_countWord (stop : Config.IdleStopSet) : decode stop countWord = .op .tmrTick := rfl

theorem decode_expireWord (stop : Config.IdleStopSet) (cl : BitVec 2) :
    decode stop (expireWord cl) = .op (expireInstr cl) := by
  have hsrc : (expireWord cl).extractLsb' 6 2 = 0b01#2 := by revert cl; decide
  have hne : expireWord cl ≠ countWord := by revert cl; decide
  have hk : (expireWord cl).extractLsb' 2 4 = 0b0100#4 := by revert cl; decide
  have hc : (expireWord cl).extractLsb' 0 2 = cl := by revert cl; decide
  simp only [decode, hsrc, hne, hk, hc, if_true, if_false]
  rw [if_neg (by decide)]

theorem decode_spiWord (stop : Config.IdleStopSet) (idx : BitVec 3) :
    decode stop (spiWord idx) = .op (spiInstr idx) := by
  have hsrc : (spiWord idx).extractLsb' 6 2 = 0b10#2 := by revert idx; decide
  have hz : (spiWord idx).extractLsb' 3 3 = 0#3 := by revert idx; decide
  have hc : (spiWord idx).extractLsb' 0 3 = idx := by revert idx; decide
  simp only [decode, hsrc, hz, hc, if_true]
  rw [if_neg (by decide), if_neg (by decide)]

theorem decode_resetWord (stop : Config.IdleStopSet) : decode stop resetWord = .op .reset := rfl

end Sys2Proof
end

