-- ==== Sys2Proof/Laws/State.lean ====
section
/-! SUPPORT. The small lemmas of State: what each named update leaves in each field, true by unfolding once, so that no
later proof unfolds a record update. -/

namespace Sys2Proof.Machine

variable (s : State)

/-! ### raiseReady -/

@[simp] theorem raiseReady_cnt : (raiseReady s).cnt = s.cnt := rfl
@[simp] theorem raiseReady_acc : (raiseReady s).acc = s.acc := rfl
@[simp] theorem raiseReady_len : (raiseReady s).len = s.len := rfl
@[simp] theorem raiseReady_rdy : (raiseReady s).rdy = true := rfl
@[simp] theorem raiseReady_sr : (raiseReady s).sr = s.sr := rfl
@[simp] theorem raiseReady_spiCnt : (raiseReady s).spiCnt = s.spiCnt := rfl
@[simp] theorem raiseReady_tmrRun : (raiseReady s).tmrRun = s.tmrRun := rfl
@[simp] theorem raiseReady_tmrCnt : (raiseReady s).tmrCnt = s.tmrCnt := rfl
@[simp] theorem raiseReady_txPend : (raiseReady s).txPend = s.txPend := rfl
@[simp] theorem raiseReady_linePrev : (raiseReady s).linePrev = s.linePrev := rfl
@[simp] theorem raiseReady_sckPrev : (raiseReady s).sckPrev = s.sckPrev := rfl
@[simp] theorem raiseReady_fault : (raiseReady s).fault = s.fault := rfl
@[simp] theorem raiseReady_params : (raiseReady s).params = s.params := rfl
@[simp] theorem raiseReady_inputs : (raiseReady s).inputs = s.inputs := rfl
@[simp] theorem raiseReady_tickNo : (raiseReady s).tickNo = s.tickNo := rfl

/-! ### lowerReady -/

@[simp] theorem lowerReady_cnt : (lowerReady s).cnt = s.cnt := rfl
@[simp] theorem lowerReady_acc : (lowerReady s).acc = s.acc := rfl
@[simp] theorem lowerReady_len : (lowerReady s).len = s.len := rfl
@[simp] theorem lowerReady_rdy : (lowerReady s).rdy = false := rfl
@[simp] theorem lowerReady_sr : (lowerReady s).sr = s.sr := rfl
@[simp] theorem lowerReady_spiCnt : (lowerReady s).spiCnt = s.spiCnt := rfl
@[simp] theorem lowerReady_tmrRun : (lowerReady s).tmrRun = s.tmrRun := rfl
@[simp] theorem lowerReady_tmrCnt : (lowerReady s).tmrCnt = s.tmrCnt := rfl
@[simp] theorem lowerReady_txPend : (lowerReady s).txPend = s.txPend := rfl
@[simp] theorem lowerReady_linePrev : (lowerReady s).linePrev = s.linePrev := rfl
@[simp] theorem lowerReady_sckPrev : (lowerReady s).sckPrev = s.sckPrev := rfl
@[simp] theorem lowerReady_fault : (lowerReady s).fault = s.fault := rfl
@[simp] theorem lowerReady_params : (lowerReady s).params = s.params := rfl
@[simp] theorem lowerReady_inputs : (lowerReady s).inputs = s.inputs := rfl
@[simp] theorem lowerReady_tickNo : (lowerReady s).tickNo = s.tickNo := rfl

/-! ### startTimer -/

@[simp] theorem startTimer_cnt : (startTimer s).cnt = s.cnt := rfl
@[simp] theorem startTimer_acc : (startTimer s).acc = s.acc := rfl
@[simp] theorem startTimer_len : (startTimer s).len = s.len := rfl
@[simp] theorem startTimer_rdy : (startTimer s).rdy = s.rdy := rfl
@[simp] theorem startTimer_sr : (startTimer s).sr = s.sr := rfl
@[simp] theorem startTimer_spiCnt : (startTimer s).spiCnt = s.spiCnt := rfl
@[simp] theorem startTimer_tmrRun : (startTimer s).tmrRun = true := rfl
@[simp] theorem startTimer_tmrCnt : (startTimer s).tmrCnt = 0 := rfl
@[simp] theorem startTimer_txPend : (startTimer s).txPend = s.txPend := rfl
@[simp] theorem startTimer_linePrev : (startTimer s).linePrev = s.linePrev := rfl
@[simp] theorem startTimer_sckPrev : (startTimer s).sckPrev = s.sckPrev := rfl
@[simp] theorem startTimer_fault : (startTimer s).fault = s.fault := rfl
@[simp] theorem startTimer_params : (startTimer s).params = s.params := rfl
@[simp] theorem startTimer_inputs : (startTimer s).inputs = s.inputs := rfl
@[simp] theorem startTimer_tickNo : (startTimer s).tickNo = s.tickNo := rfl

/-! ### stopTimer -/

@[simp] theorem stopTimer_cnt : (stopTimer s).cnt = s.cnt := rfl
@[simp] theorem stopTimer_acc : (stopTimer s).acc = s.acc := rfl
@[simp] theorem stopTimer_len : (stopTimer s).len = s.len := rfl
@[simp] theorem stopTimer_rdy : (stopTimer s).rdy = s.rdy := rfl
@[simp] theorem stopTimer_sr : (stopTimer s).sr = s.sr := rfl
@[simp] theorem stopTimer_spiCnt : (stopTimer s).spiCnt = s.spiCnt := rfl
@[simp] theorem stopTimer_tmrRun : (stopTimer s).tmrRun = false := rfl
@[simp] theorem stopTimer_tmrCnt : (stopTimer s).tmrCnt = s.tmrCnt := rfl
@[simp] theorem stopTimer_txPend : (stopTimer s).txPend = s.txPend := rfl
@[simp] theorem stopTimer_linePrev : (stopTimer s).linePrev = s.linePrev := rfl
@[simp] theorem stopTimer_sckPrev : (stopTimer s).sckPrev = s.sckPrev := rfl
@[simp] theorem stopTimer_fault : (stopTimer s).fault = s.fault := rfl
@[simp] theorem stopTimer_params : (stopTimer s).params = s.params := rfl
@[simp] theorem stopTimer_inputs : (stopTimer s).inputs = s.inputs := rfl
@[simp] theorem stopTimer_tickNo : (stopTimer s).tickNo = s.tickNo := rfl

/-! ### markTxPend -/

@[simp] theorem markTxPend_cnt : (markTxPend s).cnt = s.cnt := rfl
@[simp] theorem markTxPend_acc : (markTxPend s).acc = s.acc := rfl
@[simp] theorem markTxPend_len : (markTxPend s).len = s.len := rfl
@[simp] theorem markTxPend_rdy : (markTxPend s).rdy = s.rdy := rfl
@[simp] theorem markTxPend_sr : (markTxPend s).sr = s.sr := rfl
@[simp] theorem markTxPend_spiCnt : (markTxPend s).spiCnt = s.spiCnt := rfl
@[simp] theorem markTxPend_tmrRun : (markTxPend s).tmrRun = s.tmrRun := rfl
@[simp] theorem markTxPend_tmrCnt : (markTxPend s).tmrCnt = s.tmrCnt := rfl
@[simp] theorem markTxPend_txPend : (markTxPend s).txPend = true := rfl
@[simp] theorem markTxPend_linePrev : (markTxPend s).linePrev = s.linePrev := rfl
@[simp] theorem markTxPend_sckPrev : (markTxPend s).sckPrev = s.sckPrev := rfl
@[simp] theorem markTxPend_fault : (markTxPend s).fault = s.fault := rfl
@[simp] theorem markTxPend_params : (markTxPend s).params = s.params := rfl
@[simp] theorem markTxPend_inputs : (markTxPend s).inputs = s.inputs := rfl
@[simp] theorem markTxPend_tickNo : (markTxPend s).tickNo = s.tickNo := rfl

/-! ### clearTxPend -/

@[simp] theorem clearTxPend_cnt : (clearTxPend s).cnt = s.cnt := rfl
@[simp] theorem clearTxPend_acc : (clearTxPend s).acc = s.acc := rfl
@[simp] theorem clearTxPend_len : (clearTxPend s).len = s.len := rfl
@[simp] theorem clearTxPend_rdy : (clearTxPend s).rdy = s.rdy := rfl
@[simp] theorem clearTxPend_sr : (clearTxPend s).sr = s.sr := rfl
@[simp] theorem clearTxPend_spiCnt : (clearTxPend s).spiCnt = s.spiCnt := rfl
@[simp] theorem clearTxPend_tmrRun : (clearTxPend s).tmrRun = s.tmrRun := rfl
@[simp] theorem clearTxPend_tmrCnt : (clearTxPend s).tmrCnt = s.tmrCnt := rfl
@[simp] theorem clearTxPend_txPend : (clearTxPend s).txPend = false := rfl
@[simp] theorem clearTxPend_linePrev : (clearTxPend s).linePrev = s.linePrev := rfl
@[simp] theorem clearTxPend_sckPrev : (clearTxPend s).sckPrev = s.sckPrev := rfl
@[simp] theorem clearTxPend_fault : (clearTxPend s).fault = s.fault := rfl
@[simp] theorem clearTxPend_params : (clearTxPend s).params = s.params := rfl
@[simp] theorem clearTxPend_inputs : (clearTxPend s).inputs = s.inputs := rfl
@[simp] theorem clearTxPend_tickNo : (clearTxPend s).tickNo = s.tickNo := rfl

/-! ### accSetBit -/

@[simp] theorem accSetBit_cnt (i : Nat) : (accSetBit i s).cnt = s.cnt := rfl
@[simp] theorem accSetBit_acc (i : Nat) : (accSetBit i s).acc = s.acc ||| oneHot i := rfl
@[simp] theorem accSetBit_len (i : Nat) : (accSetBit i s).len = s.len := rfl
@[simp] theorem accSetBit_rdy (i : Nat) : (accSetBit i s).rdy = s.rdy := rfl
@[simp] theorem accSetBit_sr (i : Nat) : (accSetBit i s).sr = s.sr := rfl
@[simp] theorem accSetBit_spiCnt (i : Nat) : (accSetBit i s).spiCnt = s.spiCnt := rfl
@[simp] theorem accSetBit_tmrRun (i : Nat) : (accSetBit i s).tmrRun = s.tmrRun := rfl
@[simp] theorem accSetBit_tmrCnt (i : Nat) : (accSetBit i s).tmrCnt = s.tmrCnt := rfl
@[simp] theorem accSetBit_txPend (i : Nat) : (accSetBit i s).txPend = s.txPend := rfl
@[simp] theorem accSetBit_linePrev (i : Nat) : (accSetBit i s).linePrev = s.linePrev := rfl
@[simp] theorem accSetBit_sckPrev (i : Nat) : (accSetBit i s).sckPrev = s.sckPrev := rfl
@[simp] theorem accSetBit_fault (i : Nat) : (accSetBit i s).fault = s.fault := rfl
@[simp] theorem accSetBit_params (i : Nat) : (accSetBit i s).params = s.params := rfl
@[simp] theorem accSetBit_inputs (i : Nat) : (accSetBit i s).inputs = s.inputs := rfl
@[simp] theorem accSetBit_tickNo (i : Nat) : (accSetBit i s).tickNo = s.tickNo := rfl

/-! ### takeByte -/

@[simp] theorem takeByte_cnt : (takeByte s).cnt = s.cnt := rfl
@[simp] theorem takeByte_acc : (takeByte s).acc = s.acc >>> 8 := rfl
@[simp] theorem takeByte_len : (takeByte s).len = s.len := rfl
@[simp] theorem takeByte_rdy : (takeByte s).rdy = s.rdy := rfl
@[simp] theorem takeByte_sr : (takeByte s).sr = payloadByte s := rfl
@[simp] theorem takeByte_spiCnt : (takeByte s).spiCnt = s.spiCnt := rfl
@[simp] theorem takeByte_tmrRun : (takeByte s).tmrRun = s.tmrRun := rfl
@[simp] theorem takeByte_tmrCnt : (takeByte s).tmrCnt = s.tmrCnt := rfl
@[simp] theorem takeByte_txPend : (takeByte s).txPend = s.txPend := rfl
@[simp] theorem takeByte_linePrev : (takeByte s).linePrev = s.linePrev := rfl
@[simp] theorem takeByte_sckPrev : (takeByte s).sckPrev = s.sckPrev := rfl
@[simp] theorem takeByte_fault : (takeByte s).fault = s.fault := rfl
@[simp] theorem takeByte_params : (takeByte s).params = s.params := rfl
@[simp] theorem takeByte_inputs : (takeByte s).inputs = s.inputs := rfl
@[simp] theorem takeByte_tickNo : (takeByte s).tickNo = s.tickNo := rfl

/-! ### clearAcc -/

@[simp] theorem clearAcc_cnt : (clearAcc s).cnt = s.cnt := rfl
@[simp] theorem clearAcc_acc : (clearAcc s).acc = 0#64 := rfl
@[simp] theorem clearAcc_len : (clearAcc s).len = s.len := rfl
@[simp] theorem clearAcc_rdy : (clearAcc s).rdy = s.rdy := rfl
@[simp] theorem clearAcc_sr : (clearAcc s).sr = s.sr := rfl
@[simp] theorem clearAcc_spiCnt : (clearAcc s).spiCnt = s.spiCnt := rfl
@[simp] theorem clearAcc_tmrRun : (clearAcc s).tmrRun = s.tmrRun := rfl
@[simp] theorem clearAcc_tmrCnt : (clearAcc s).tmrCnt = s.tmrCnt := rfl
@[simp] theorem clearAcc_txPend : (clearAcc s).txPend = s.txPend := rfl
@[simp] theorem clearAcc_linePrev : (clearAcc s).linePrev = s.linePrev := rfl
@[simp] theorem clearAcc_sckPrev : (clearAcc s).sckPrev = s.sckPrev := rfl
@[simp] theorem clearAcc_fault : (clearAcc s).fault = s.fault := rfl
@[simp] theorem clearAcc_params : (clearAcc s).params = s.params := rfl
@[simp] theorem clearAcc_inputs : (clearAcc s).inputs = s.inputs := rfl
@[simp] theorem clearAcc_tickNo : (clearAcc s).tickNo = s.tickNo := rfl

/-! ### stripAcc -/

@[simp] theorem stripAcc_cnt : (stripAcc s).cnt = s.cnt := rfl
@[simp] theorem stripAcc_acc : (stripAcc s).acc = stripped s.params s.acc s.cnt := rfl
@[simp] theorem stripAcc_len : (stripAcc s).len = s.len := rfl
@[simp] theorem stripAcc_rdy : (stripAcc s).rdy = s.rdy := rfl
@[simp] theorem stripAcc_sr : (stripAcc s).sr = s.sr := rfl
@[simp] theorem stripAcc_spiCnt : (stripAcc s).spiCnt = s.spiCnt := rfl
@[simp] theorem stripAcc_tmrRun : (stripAcc s).tmrRun = s.tmrRun := rfl
@[simp] theorem stripAcc_tmrCnt : (stripAcc s).tmrCnt = s.tmrCnt := rfl
@[simp] theorem stripAcc_txPend : (stripAcc s).txPend = s.txPend := rfl
@[simp] theorem stripAcc_linePrev : (stripAcc s).linePrev = s.linePrev := rfl
@[simp] theorem stripAcc_sckPrev : (stripAcc s).sckPrev = s.sckPrev := rfl
@[simp] theorem stripAcc_fault : (stripAcc s).fault = s.fault := rfl
@[simp] theorem stripAcc_params : (stripAcc s).params = s.params := rfl
@[simp] theorem stripAcc_inputs : (stripAcc s).inputs = s.inputs := rfl
@[simp] theorem stripAcc_tickNo : (stripAcc s).tickNo = s.tickNo := rfl

/-! ### clearCnt -/

@[simp] theorem clearCnt_cnt : (clearCnt s).cnt = 0#6 := rfl
@[simp] theorem clearCnt_acc : (clearCnt s).acc = s.acc := rfl
@[simp] theorem clearCnt_len : (clearCnt s).len = s.len := rfl
@[simp] theorem clearCnt_rdy : (clearCnt s).rdy = s.rdy := rfl
@[simp] theorem clearCnt_sr : (clearCnt s).sr = s.sr := rfl
@[simp] theorem clearCnt_spiCnt : (clearCnt s).spiCnt = s.spiCnt := rfl
@[simp] theorem clearCnt_tmrRun : (clearCnt s).tmrRun = s.tmrRun := rfl
@[simp] theorem clearCnt_tmrCnt : (clearCnt s).tmrCnt = s.tmrCnt := rfl
@[simp] theorem clearCnt_txPend : (clearCnt s).txPend = s.txPend := rfl
@[simp] theorem clearCnt_linePrev : (clearCnt s).linePrev = s.linePrev := rfl
@[simp] theorem clearCnt_sckPrev : (clearCnt s).sckPrev = s.sckPrev := rfl
@[simp] theorem clearCnt_fault : (clearCnt s).fault = s.fault := rfl
@[simp] theorem clearCnt_params : (clearCnt s).params = s.params := rfl
@[simp] theorem clearCnt_inputs : (clearCnt s).inputs = s.inputs := rfl
@[simp] theorem clearCnt_tickNo : (clearCnt s).tickNo = s.tickNo := rfl

/-! ### bumpCnt -/

@[simp] theorem bumpCnt_cnt : (bumpCnt s).cnt = s.cnt + 1#6 := rfl
@[simp] theorem bumpCnt_acc : (bumpCnt s).acc = s.acc := rfl
@[simp] theorem bumpCnt_len : (bumpCnt s).len = s.len := rfl
@[simp] theorem bumpCnt_rdy : (bumpCnt s).rdy = s.rdy := rfl
@[simp] theorem bumpCnt_sr : (bumpCnt s).sr = s.sr := rfl
@[simp] theorem bumpCnt_spiCnt : (bumpCnt s).spiCnt = s.spiCnt := rfl
@[simp] theorem bumpCnt_tmrRun : (bumpCnt s).tmrRun = s.tmrRun := rfl
@[simp] theorem bumpCnt_tmrCnt : (bumpCnt s).tmrCnt = s.tmrCnt := rfl
@[simp] theorem bumpCnt_txPend : (bumpCnt s).txPend = s.txPend := rfl
@[simp] theorem bumpCnt_linePrev : (bumpCnt s).linePrev = s.linePrev := rfl
@[simp] theorem bumpCnt_sckPrev : (bumpCnt s).sckPrev = s.sckPrev := rfl
@[simp] theorem bumpCnt_fault : (bumpCnt s).fault = s.fault := rfl
@[simp] theorem bumpCnt_params : (bumpCnt s).params = s.params := rfl
@[simp] theorem bumpCnt_inputs : (bumpCnt s).inputs = s.inputs := rfl
@[simp] theorem bumpCnt_tickNo : (bumpCnt s).tickNo = s.tickNo := rfl

/-! ### bumpTimer -/

@[simp] theorem bumpTimer_cnt : (bumpTimer s).cnt = s.cnt := rfl
@[simp] theorem bumpTimer_acc : (bumpTimer s).acc = s.acc := rfl
@[simp] theorem bumpTimer_len : (bumpTimer s).len = s.len := rfl
@[simp] theorem bumpTimer_rdy : (bumpTimer s).rdy = s.rdy := rfl
@[simp] theorem bumpTimer_sr : (bumpTimer s).sr = s.sr := rfl
@[simp] theorem bumpTimer_spiCnt : (bumpTimer s).spiCnt = s.spiCnt := rfl
@[simp] theorem bumpTimer_tmrRun : (bumpTimer s).tmrRun = s.tmrRun := rfl
@[simp] theorem bumpTimer_tmrCnt : (bumpTimer s).tmrCnt = timerBits s.params (s.tmrCnt + 1) := rfl
@[simp] theorem bumpTimer_txPend : (bumpTimer s).txPend = s.txPend := rfl
@[simp] theorem bumpTimer_linePrev : (bumpTimer s).linePrev = s.linePrev := rfl
@[simp] theorem bumpTimer_sckPrev : (bumpTimer s).sckPrev = s.sckPrev := rfl
@[simp] theorem bumpTimer_fault : (bumpTimer s).fault = s.fault := rfl
@[simp] theorem bumpTimer_params : (bumpTimer s).params = s.params := rfl
@[simp] theorem bumpTimer_inputs : (bumpTimer s).inputs = s.inputs := rfl
@[simp] theorem bumpTimer_tickNo : (bumpTimer s).tickNo = s.tickNo := rfl

/-! ### shiftOut -/

@[simp] theorem shiftOut_cnt : (shiftOut s).cnt = s.cnt := rfl
@[simp] theorem shiftOut_acc : (shiftOut s).acc = s.acc := rfl
@[simp] theorem shiftOut_len : (shiftOut s).len = s.len := rfl
@[simp] theorem shiftOut_rdy : (shiftOut s).rdy = s.rdy := rfl
@[simp] theorem shiftOut_sr : (shiftOut s).sr = s.sr <<< 1 := rfl
@[simp] theorem shiftOut_spiCnt : (shiftOut s).spiCnt = s.spiCnt := rfl
@[simp] theorem shiftOut_tmrRun : (shiftOut s).tmrRun = s.tmrRun := rfl
@[simp] theorem shiftOut_tmrCnt : (shiftOut s).tmrCnt = s.tmrCnt := rfl
@[simp] theorem shiftOut_txPend : (shiftOut s).txPend = s.txPend := rfl
@[simp] theorem shiftOut_linePrev : (shiftOut s).linePrev = s.linePrev := rfl
@[simp] theorem shiftOut_sckPrev : (shiftOut s).sckPrev = s.sckPrev := rfl
@[simp] theorem shiftOut_fault : (shiftOut s).fault = s.fault := rfl
@[simp] theorem shiftOut_params : (shiftOut s).params = s.params := rfl
@[simp] theorem shiftOut_inputs : (shiftOut s).inputs = s.inputs := rfl
@[simp] theorem shiftOut_tickNo : (shiftOut s).tickNo = s.tickNo := rfl

/-! ### bumpSpi -/

@[simp] theorem bumpSpi_cnt : (bumpSpi s).cnt = s.cnt := rfl
@[simp] theorem bumpSpi_acc : (bumpSpi s).acc = s.acc := rfl
@[simp] theorem bumpSpi_len : (bumpSpi s).len = s.len := rfl
@[simp] theorem bumpSpi_rdy : (bumpSpi s).rdy = s.rdy := rfl
@[simp] theorem bumpSpi_sr : (bumpSpi s).sr = s.sr := rfl
@[simp] theorem bumpSpi_spiCnt : (bumpSpi s).spiCnt = s.spiCnt + 1#3 := rfl
@[simp] theorem bumpSpi_tmrRun : (bumpSpi s).tmrRun = s.tmrRun := rfl
@[simp] theorem bumpSpi_tmrCnt : (bumpSpi s).tmrCnt = s.tmrCnt := rfl
@[simp] theorem bumpSpi_txPend : (bumpSpi s).txPend = s.txPend := rfl
@[simp] theorem bumpSpi_linePrev : (bumpSpi s).linePrev = s.linePrev := rfl
@[simp] theorem bumpSpi_sckPrev : (bumpSpi s).sckPrev = s.sckPrev := rfl
@[simp] theorem bumpSpi_fault : (bumpSpi s).fault = s.fault := rfl
@[simp] theorem bumpSpi_params : (bumpSpi s).params = s.params := rfl
@[simp] theorem bumpSpi_inputs : (bumpSpi s).inputs = s.inputs := rfl
@[simp] theorem bumpSpi_tickNo : (bumpSpi s).tickNo = s.tickNo := rfl

/-! ### clearSpi -/

@[simp] theorem clearSpi_cnt : (clearSpi s).cnt = s.cnt := rfl
@[simp] theorem clearSpi_acc : (clearSpi s).acc = s.acc := rfl
@[simp] theorem clearSpi_len : (clearSpi s).len = s.len := rfl
@[simp] theorem clearSpi_rdy : (clearSpi s).rdy = s.rdy := rfl
@[simp] theorem clearSpi_sr : (clearSpi s).sr = s.sr := rfl
@[simp] theorem clearSpi_spiCnt : (clearSpi s).spiCnt = 0#3 := rfl
@[simp] theorem clearSpi_tmrRun : (clearSpi s).tmrRun = s.tmrRun := rfl
@[simp] theorem clearSpi_tmrCnt : (clearSpi s).tmrCnt = s.tmrCnt := rfl
@[simp] theorem clearSpi_txPend : (clearSpi s).txPend = s.txPend := rfl
@[simp] theorem clearSpi_linePrev : (clearSpi s).linePrev = s.linePrev := rfl
@[simp] theorem clearSpi_sckPrev : (clearSpi s).sckPrev = s.sckPrev := rfl
@[simp] theorem clearSpi_fault : (clearSpi s).fault = s.fault := rfl
@[simp] theorem clearSpi_params : (clearSpi s).params = s.params := rfl
@[simp] theorem clearSpi_inputs : (clearSpi s).inputs = s.inputs := rfl
@[simp] theorem clearSpi_tickNo : (clearSpi s).tickNo = s.tickNo := rfl

/-! ### stageLength -/

@[simp] theorem stageLength_cnt : (stageLength s).cnt = s.cnt := rfl
@[simp] theorem stageLength_acc : (stageLength s).acc = s.acc := rfl
@[simp] theorem stageLength_len : (stageLength s).len = lengthByte s.cnt := rfl
@[simp] theorem stageLength_rdy : (stageLength s).rdy = s.rdy := rfl
@[simp] theorem stageLength_sr : (stageLength s).sr = lengthByte s.cnt := rfl
@[simp] theorem stageLength_spiCnt : (stageLength s).spiCnt = s.spiCnt := rfl
@[simp] theorem stageLength_tmrRun : (stageLength s).tmrRun = s.tmrRun := rfl
@[simp] theorem stageLength_tmrCnt : (stageLength s).tmrCnt = s.tmrCnt := rfl
@[simp] theorem stageLength_txPend : (stageLength s).txPend = s.txPend := rfl
@[simp] theorem stageLength_linePrev : (stageLength s).linePrev = s.linePrev := rfl
@[simp] theorem stageLength_sckPrev : (stageLength s).sckPrev = s.sckPrev := rfl
@[simp] theorem stageLength_fault : (stageLength s).fault = s.fault := rfl
@[simp] theorem stageLength_params : (stageLength s).params = s.params := rfl
@[simp] theorem stageLength_inputs : (stageLength s).inputs = s.inputs := rfl
@[simp] theorem stageLength_tickNo : (stageLength s).tickNo = s.tickNo := rfl

/-! ### latchLines -/

@[simp] theorem latchLines_cnt (cur : LinePair) : (latchLines cur s).cnt = s.cnt := rfl
@[simp] theorem latchLines_acc (cur : LinePair) : (latchLines cur s).acc = s.acc := rfl
@[simp] theorem latchLines_len (cur : LinePair) : (latchLines cur s).len = s.len := rfl
@[simp] theorem latchLines_rdy (cur : LinePair) : (latchLines cur s).rdy = s.rdy := rfl
@[simp] theorem latchLines_sr (cur : LinePair) : (latchLines cur s).sr = s.sr := rfl
@[simp] theorem latchLines_spiCnt (cur : LinePair) : (latchLines cur s).spiCnt = s.spiCnt := rfl
@[simp] theorem latchLines_tmrRun (cur : LinePair) : (latchLines cur s).tmrRun = s.tmrRun := rfl
@[simp] theorem latchLines_tmrCnt (cur : LinePair) : (latchLines cur s).tmrCnt = s.tmrCnt := rfl
@[simp] theorem latchLines_txPend (cur : LinePair) : (latchLines cur s).txPend = s.txPend := rfl
@[simp] theorem latchLines_linePrev (cur : LinePair) : (latchLines cur s).linePrev = cur := rfl
@[simp] theorem latchLines_sckPrev (cur : LinePair) : (latchLines cur s).sckPrev = s.sckPrev := rfl
@[simp] theorem latchLines_fault (cur : LinePair) : (latchLines cur s).fault = s.fault := rfl
@[simp] theorem latchLines_params (cur : LinePair) : (latchLines cur s).params = s.params := rfl
@[simp] theorem latchLines_inputs (cur : LinePair) : (latchLines cur s).inputs = s.inputs := rfl
@[simp] theorem latchLines_tickNo (cur : LinePair) : (latchLines cur s).tickNo = s.tickNo := rfl

/-! ### latchSck -/

@[simp] theorem latchSck_cnt (sck : Bool) : (latchSck sck s).cnt = s.cnt := rfl
@[simp] theorem latchSck_acc (sck : Bool) : (latchSck sck s).acc = s.acc := rfl
@[simp] theorem latchSck_len (sck : Bool) : (latchSck sck s).len = s.len := rfl
@[simp] theorem latchSck_rdy (sck : Bool) : (latchSck sck s).rdy = s.rdy := rfl
@[simp] theorem latchSck_sr (sck : Bool) : (latchSck sck s).sr = s.sr := rfl
@[simp] theorem latchSck_spiCnt (sck : Bool) : (latchSck sck s).spiCnt = s.spiCnt := rfl
@[simp] theorem latchSck_tmrRun (sck : Bool) : (latchSck sck s).tmrRun = s.tmrRun := rfl
@[simp] theorem latchSck_tmrCnt (sck : Bool) : (latchSck sck s).tmrCnt = s.tmrCnt := rfl
@[simp] theorem latchSck_txPend (sck : Bool) : (latchSck sck s).txPend = s.txPend := rfl
@[simp] theorem latchSck_linePrev (sck : Bool) : (latchSck sck s).linePrev = s.linePrev := rfl
@[simp] theorem latchSck_sckPrev (sck : Bool) : (latchSck sck s).sckPrev = sck := rfl
@[simp] theorem latchSck_fault (sck : Bool) : (latchSck sck s).fault = s.fault := rfl
@[simp] theorem latchSck_params (sck : Bool) : (latchSck sck s).params = s.params := rfl
@[simp] theorem latchSck_inputs (sck : Bool) : (latchSck sck s).inputs = s.inputs := rfl
@[simp] theorem latchSck_tickNo (sck : Bool) : (latchSck sck s).tickNo = s.tickNo := rfl

/-! ### finalize -/

@[simp] theorem finalize_cnt : (finalize s).cnt = 0#6 := rfl
@[simp] theorem finalize_acc : (finalize s).acc = s.acc := rfl
@[simp] theorem finalize_len : (finalize s).len = lengthByte s.cnt := rfl
@[simp] theorem finalize_rdy : (finalize s).rdy = true := rfl
@[simp] theorem finalize_sr : (finalize s).sr = lengthByte s.cnt := rfl
@[simp] theorem finalize_spiCnt : (finalize s).spiCnt = s.spiCnt := rfl
@[simp] theorem finalize_tmrRun : (finalize s).tmrRun = s.tmrRun := rfl
@[simp] theorem finalize_tmrCnt : (finalize s).tmrCnt = s.tmrCnt := rfl
@[simp] theorem finalize_txPend : (finalize s).txPend = s.txPend := rfl
@[simp] theorem finalize_linePrev : (finalize s).linePrev = s.linePrev := rfl
@[simp] theorem finalize_sckPrev : (finalize s).sckPrev = s.sckPrev := rfl
@[simp] theorem finalize_fault : (finalize s).fault = s.fault := rfl
@[simp] theorem finalize_params : (finalize s).params = s.params := rfl
@[simp] theorem finalize_inputs : (finalize s).inputs = s.inputs := rfl
@[simp] theorem finalize_tickNo : (finalize s).tickNo = s.tickNo := rfl

/-! ### txByte -/

@[simp] theorem txByte_cnt : (txByte s).cnt = s.cnt := rfl
@[simp] theorem txByte_acc : (txByte s).acc = s.acc >>> 8 := rfl
@[simp] theorem txByte_len : (txByte s).len = s.len := rfl
@[simp] theorem txByte_rdy : (txByte s).rdy = false := rfl
@[simp] theorem txByte_sr : (txByte s).sr = payloadByte s := rfl
@[simp] theorem txByte_spiCnt : (txByte s).spiCnt = s.spiCnt := rfl
@[simp] theorem txByte_tmrRun : (txByte s).tmrRun = s.tmrRun := rfl
@[simp] theorem txByte_tmrCnt : (txByte s).tmrCnt = s.tmrCnt := rfl
@[simp] theorem txByte_txPend : (txByte s).txPend = false := rfl
@[simp] theorem txByte_linePrev : (txByte s).linePrev = s.linePrev := rfl
@[simp] theorem txByte_sckPrev : (txByte s).sckPrev = s.sckPrev := rfl
@[simp] theorem txByte_fault : (txByte s).fault = s.fault := rfl
@[simp] theorem txByte_params : (txByte s).params = s.params := rfl
@[simp] theorem txByte_inputs : (txByte s).inputs = s.inputs := rfl
@[simp] theorem txByte_tickNo : (txByte s).tickNo = s.tickNo := rfl

/-! ### takeSample -/

@[simp] theorem takeSample_cnt : (takeSample s).cnt = s.cnt := rfl
@[simp] theorem takeSample_acc : (takeSample s).acc = s.acc := rfl
@[simp] theorem takeSample_len : (takeSample s).len = s.len := rfl
@[simp] theorem takeSample_rdy : (takeSample s).rdy = s.rdy := rfl
@[simp] theorem takeSample_sr : (takeSample s).sr = s.sr := rfl
@[simp] theorem takeSample_spiCnt : (takeSample s).spiCnt = s.spiCnt := rfl
@[simp] theorem takeSample_tmrRun : (takeSample s).tmrRun = s.tmrRun := rfl
@[simp] theorem takeSample_tmrCnt : (takeSample s).tmrCnt = s.tmrCnt := rfl
@[simp] theorem takeSample_txPend : (takeSample s).txPend = s.txPend := rfl
@[simp] theorem takeSample_linePrev : (takeSample s).linePrev = s.linePrev := rfl
@[simp] theorem takeSample_sckPrev : (takeSample s).sckPrev = s.sckPrev := rfl
@[simp] theorem takeSample_fault : (takeSample s).fault = s.fault := rfl
@[simp] theorem takeSample_params : (takeSample s).params = s.params := rfl
@[simp] theorem takeSample_inputs : (takeSample s).inputs = s.inputs.tail := rfl
@[simp] theorem takeSample_tickNo : (takeSample s).tickNo = s.tickNo + 1 := rfl

/-! ### forgetTime -/

@[simp] theorem forgetTime_cnt : (forgetTime s).cnt = s.cnt := rfl
@[simp] theorem forgetTime_acc : (forgetTime s).acc = s.acc := rfl
@[simp] theorem forgetTime_len : (forgetTime s).len = s.len := rfl
@[simp] theorem forgetTime_rdy : (forgetTime s).rdy = s.rdy := rfl
@[simp] theorem forgetTime_sr : (forgetTime s).sr = s.sr := rfl
@[simp] theorem forgetTime_spiCnt : (forgetTime s).spiCnt = s.spiCnt := rfl
@[simp] theorem forgetTime_tmrRun : (forgetTime s).tmrRun = s.tmrRun := rfl
@[simp] theorem forgetTime_tmrCnt : (forgetTime s).tmrCnt = 0 := rfl
@[simp] theorem forgetTime_txPend : (forgetTime s).txPend = s.txPend := rfl
@[simp] theorem forgetTime_linePrev : (forgetTime s).linePrev = s.linePrev := rfl
@[simp] theorem forgetTime_sckPrev : (forgetTime s).sckPrev = false := rfl
@[simp] theorem forgetTime_fault : (forgetTime s).fault = s.fault := rfl
@[simp] theorem forgetTime_params : (forgetTime s).params = s.params := rfl
@[simp] theorem forgetTime_inputs : (forgetTime s).inputs = s.inputs := rfl
@[simp] theorem forgetTime_tickNo : (forgetTime s).tickNo = s.tickNo := rfl

/-! ### resetState -/

@[simp] theorem resetState_cnt : (resetState s).cnt = 0#6 := rfl
@[simp] theorem resetState_acc : (resetState s).acc = 0#64 := rfl
@[simp] theorem resetState_len : (resetState s).len = 0#8 := rfl
@[simp] theorem resetState_rdy : (resetState s).rdy = false := rfl
@[simp] theorem resetState_sr : (resetState s).sr = 0x00#8 := rfl
@[simp] theorem resetState_spiCnt : (resetState s).spiCnt = 0#3 := rfl
@[simp] theorem resetState_tmrRun : (resetState s).tmrRun = false := rfl
@[simp] theorem resetState_tmrCnt : (resetState s).tmrCnt = 0 := rfl
@[simp] theorem resetState_txPend : (resetState s).txPend = false := rfl
@[simp] theorem resetState_linePrev : (resetState s).linePrev = LinePair.HH := rfl
@[simp] theorem resetState_sckPrev : (resetState s).sckPrev = false := rfl
@[simp] theorem resetState_fault : (resetState s).fault = none := rfl
@[simp] theorem resetState_params : (resetState s).params = s.params := rfl
@[simp] theorem resetState_inputs : (resetState s).inputs = s.inputs := rfl
@[simp] theorem resetState_tickNo : (resetState s).tickNo = s.tickNo := rfl

/-! ### recordFault: the other elements are free -/

@[simp] theorem recordFault_fault (f : Fault) (cur : LinePair) : (recordFault f cur s).fault = some f := rfl
@[simp] theorem recordFault_linePrev (f : Fault) (cur : LinePair) : (recordFault f cur s).linePrev = cur := rfl
@[simp] theorem recordFault_params (f : Fault) (cur : LinePair) : (recordFault f cur s).params = s.params := rfl
@[simp] theorem recordFault_inputs (f : Fault) (cur : LinePair) : (recordFault f cur s).inputs = s.inputs := rfl
@[simp] theorem recordFault_tickNo (f : Fault) (cur : LinePair) : (recordFault f cur s).tickNo = s.tickNo := rfl
@[simp] theorem recordFault_tmrCnt (f : Fault) (cur : LinePair) : (recordFault f cur s).tmrCnt = timerBits s.params (Config.afterOverflow s).tmrCnt := rfl

/-! ### override -/

@[simp] theorem override_cnt : (override s).cnt = bif s.rdy then 0#6 else s.cnt := by
  cases h : s.rdy <;> simp [override, h]
@[simp] theorem override_acc : (override s).acc = bif s.rdy then 0#64 else s.acc := by
  cases h : s.rdy <;> simp [override, h]
@[simp] theorem override_len : (override s).len = s.len := by
  unfold override; split <;> rfl
@[simp] theorem override_rdy : (override s).rdy = false := by
  unfold override; split <;> simp_all
@[simp] theorem override_sr : (override s).sr = s.sr := by
  unfold override; split <;> rfl
@[simp] theorem override_spiCnt : (override s).spiCnt = s.spiCnt := by
  unfold override; split <;> rfl
@[simp] theorem override_tmrRun : (override s).tmrRun = s.tmrRun := by
  unfold override; split <;> rfl
@[simp] theorem override_tmrCnt : (override s).tmrCnt = s.tmrCnt := by
  unfold override; split <;> rfl
@[simp] theorem override_txPend : (override s).txPend = s.txPend := by
  unfold override; split <;> rfl
@[simp] theorem override_linePrev : (override s).linePrev = s.linePrev := by
  unfold override; split <;> rfl
@[simp] theorem override_sckPrev : (override s).sckPrev = s.sckPrev := by
  unfold override; split <;> rfl
@[simp] theorem override_fault : (override s).fault = s.fault := by
  unfold override; split <;> rfl
@[simp] theorem override_params : (override s).params = s.params := by
  unfold override; split <;> rfl
@[simp] theorem override_inputs : (override s).inputs = s.inputs := by
  unfold override; split <;> rfl
@[simp] theorem override_tickNo : (override s).tickNo = s.tickNo := by
  unfold override; split <;> rfl

/-! ### appendBit -/

@[simp] theorem appendBit_cnt (b : Bool) : (appendBit b s).cnt = s.cnt := by
  cases b <;> rfl
@[simp] theorem appendBit_acc (b : Bool) :
    (appendBit b s).acc = bif b then s.acc ||| oneHot s.cnt.toNat else s.acc := by
  cases b <;> rfl
@[simp] theorem appendBit_len (b : Bool) : (appendBit b s).len = s.len := by
  cases b <;> rfl
@[simp] theorem appendBit_rdy (b : Bool) : (appendBit b s).rdy = s.rdy := by
  cases b <;> rfl
@[simp] theorem appendBit_sr (b : Bool) : (appendBit b s).sr = s.sr := by
  cases b <;> rfl
@[simp] theorem appendBit_spiCnt (b : Bool) : (appendBit b s).spiCnt = s.spiCnt := by
  cases b <;> rfl
@[simp] theorem appendBit_tmrRun (b : Bool) : (appendBit b s).tmrRun = s.tmrRun := by
  cases b <;> rfl
@[simp] theorem appendBit_tmrCnt (b : Bool) : (appendBit b s).tmrCnt = s.tmrCnt := by
  cases b <;> rfl
@[simp] theorem appendBit_txPend (b : Bool) : (appendBit b s).txPend = s.txPend := by
  cases b <;> rfl
@[simp] theorem appendBit_linePrev (b : Bool) : (appendBit b s).linePrev = s.linePrev := by
  cases b <;> rfl
@[simp] theorem appendBit_sckPrev (b : Bool) : (appendBit b s).sckPrev = s.sckPrev := by
  cases b <;> rfl
@[simp] theorem appendBit_fault (b : Bool) : (appendBit b s).fault = s.fault := by
  cases b <;> rfl
@[simp] theorem appendBit_params (b : Bool) : (appendBit b s).params = s.params := by
  cases b <;> rfl
@[simp] theorem appendBit_inputs (b : Bool) : (appendBit b s).inputs = s.inputs := by
  cases b <;> rfl
@[simp] theorem appendBit_tickNo (b : Bool) : (appendBit b s).tickNo = s.tickNo := by
  cases b <;> rfl

end Sys2Proof.Machine
end

