-- ==== Sys2Proof/Laws/Ops.lean ====
section
/-! SUPPORT. What each shared operation can do, said once: `unlessFaulted`, `ValidBit` and the operand helpers, and that no
meaning refuses. -/

namespace Sys2Proof.Machine

theorem unlessFaulted_of_none {s : State} (h : s.fault = none) (run : State → Result) :
    unlessFaulted s run = run s := by
  simp [unlessFaulted, h]

theorem unlessFaulted_of_some {s : State} {f : Fault} (h : s.fault = some f) (run : State → Result) :
    unlessFaulted s run = .fault f := by
  simp [unlessFaulted, h]

/-- A guarded operation that gives a next state ran with `Fault` empty. -/
theorem unlessFaulted_next {s t : State} {run : State → Result} (h : unlessFaulted s run = .next t) :
    s.fault = none ∧ run s = .next t := by
  cases hf : s.fault with
  | none => exact ⟨rfl, by rwa [unlessFaulted_of_none hf] at h⟩
  | some f => rw [unlessFaulted_of_some hf] at h; cases h

@[simp] theorem andThen_next (s : State) (f : State → Result) : andThen (.next s) f = f s := rfl

@[simp] theorem andThen_fault (e : Fault) (f : State → Result) : andThen (.fault e) f = .fault e := rfl

@[simp] theorem andThen_refused (e : Refusal) (f : State → Result) : andThen (.refused e) f = .refused e := rfl

/-- A sequence gives a next state only where both its operations do. -/
theorem andThen_eq_next {r : Result} {f : State → Result} {t : State} (h : andThen r f = .next t) :
    ∃ s, r = .next s ∧ f s = .next t := by
  cases r with
  | next s => exact ⟨s, rfl, h⟩
  | fault e => cases h
  | refused e => cases h

/-- The state that `ValidBit(b)` leaves when it does not overflow (40_sampler.md R104). -/
def counted (b : Bool) (s : State) : State := startTimer (bumpCnt (appendBit b (override (stopTimer s))))

theorem validBit_of_room {s : State} (b : Bool) (h : pulseOverflows s = false) :
    validBit b s = .next (counted b s) := by
  simp [validBit, h, counted]

theorem validBit_of_full {s : State} (b : Bool) (h : pulseOverflows s = true) :
    validBit b s = .fault .counterOverflow := by
  simp [validBit, h, raiseOverflow]

theorem validBit_next {s t : State} {b : Bool} (h : validBit b s = .next t) :
    pulseOverflows s = false ∧ t = counted b s := by
  cases ho : pulseOverflows s with
  | false =>
    rw [validBit_of_room b ho] at h
    injection h with h
    exact ⟨rfl, h.symm⟩
  | true => rw [validBit_of_full b ho] at h; cases h

/-- The overflow test in words: the counter is full and no override empties it (R106). -/
theorem pulseOverflows_iff (s : State) : pulseOverflows s = true ↔ s.rdy = false ∧ s.cnt = 63#6 := by
  cases h : s.rdy <;> simp [pulseOverflows, h]

@[simp] theorem pulseOverflows_latchLines (cur : LinePair) (s : State) :
    pulseOverflows (latchLines cur s) = pulseOverflows s := by
  simp [pulseOverflows]

section Counted

variable (b : Bool) (s : State)

@[simp] theorem counted_cnt : (counted b s).cnt = (bif s.rdy then 0#6 else s.cnt) + 1#6 := by simp [counted]
@[simp] theorem counted_acc : (counted b s).acc =
    (bif s.rdy then 0#64 else s.acc) ||| (bif b then oneHot (bif s.rdy then 0#6 else s.cnt).toNat else 0#64) := by
  cases b <;> simp [counted]
@[simp] theorem counted_len : (counted b s).len = s.len := by simp [counted]
@[simp] theorem counted_rdy : (counted b s).rdy = false := by simp [counted]
@[simp] theorem counted_sr : (counted b s).sr = s.sr := by simp [counted]
@[simp] theorem counted_spiCnt : (counted b s).spiCnt = s.spiCnt := by simp [counted]
@[simp] theorem counted_tmrRun : (counted b s).tmrRun = true := by simp [counted]
@[simp] theorem counted_tmrCnt : (counted b s).tmrCnt = 0 := by simp [counted]
@[simp] theorem counted_txPend : (counted b s).txPend = s.txPend := by simp [counted]
@[simp] theorem counted_linePrev : (counted b s).linePrev = s.linePrev := by simp [counted]
@[simp] theorem counted_sckPrev : (counted b s).sckPrev = s.sckPrev := by simp [counted]
@[simp] theorem counted_fault : (counted b s).fault = s.fault := by simp [counted]
@[simp] theorem counted_params : (counted b s).params = s.params := by simp [counted]
@[simp] theorem counted_inputs : (counted b s).inputs = s.inputs := by simp [counted]
@[simp] theorem counted_tickNo : (counted b s).tickNo = s.tickNo := by simp [counted]

end Counted

/-! ## Each meaning on a machine without a standing fault -/

section Meanings

variable {s : State} (h : s.fault = none)
include h

theorem exec_sampleBit0 (prev : LinePair) :
    exec (.sampleBit0 prev) s = validBit false (latchLines LinePair.HL s) := by
  simp [exec, execSampleBit0, unlessFaulted, h]
theorem exec_sampleBit1 (prev : LinePair) :
    exec (.sampleBit1 prev) s = validBit true (latchLines LinePair.LH s) := by
  simp [exec, execSampleBit1, unlessFaulted, h]
theorem exec_sampleIdle (move : QuietMove) :
    exec (.sampleIdle move) s = .next (latchLines move.cur (stopTimer s)) := by
  simp [exec, execSampleIdle, unlessFaulted, h]
theorem exec_sampleEnd0 :
    exec .sampleEnd0 s = .next (latchLines LinePair.HH s) := by
  simp [exec, execSampleEnd0, unlessFaulted, h]
theorem exec_sampleEnd1 :
    exec .sampleEnd1 s = .next (latchLines LinePair.HH s) := by
  simp [exec, execSampleEnd1, unlessFaulted, h]
theorem exec_sampleNoise (move : QuietMove) :
    exec (.sampleNoise move) s = .next (latchLines move.cur s) := by
  simp [exec, execSampleNoise, unlessFaulted, h]
theorem exec_tmrTick :
    exec .tmrTick s = .next (bumpTimer s) := by
  simp [exec, execTmrTick, unlessFaulted, h]
theorem exec_tmoDiscard (cl : BitVec 2) :
    exec (.tmoDiscard cl) s = .next (clearAcc (clearCnt (stopTimer s))) := by
  simp [exec, execTmoDiscard, unlessFaulted, h]
theorem exec_tmoFinal :
    exec .tmoFinal s = .next (finalize (stopTimer s)) := by
  simp [exec, execTmoFinal, unlessFaulted, h]
theorem exec_tmoStrip :
    exec .tmoStrip s = .next (finalize (stripAcc (stopTimer s))) := by
  simp [exec, execTmoStrip, unlessFaulted, h]
theorem exec_spiShift (idx : BitVec 3) :
    exec (.spiShift idx) s = .next (latchSck false (bumpSpi (shiftOut s))) := by
  simp [exec, execSpiShift, unlessFaulted, h]
theorem exec_spiByte :
    exec .spiByte s = .next (latchSck false (txByte (markTxPend (clearSpi (shiftOut s))))) := by
  simp [exec, execSpiByte, unlessFaulted, h]

end Meanings

/-! ## The width of the timer count (00_scope.md R7, 10_state.md R28) -/

/-- Every form of the parameters meets R7's `DEADLINE < 2 ^ TMR_W`. -/
theorem deadline_lt_two_pow (p : Config.Params) : p.deadline < 2 ^ p.tmrW :=
  lt_of_lt_of_le Nat.lt_log2_self (Nat.pow_le_pow_right (by decide) (Nat.le_add_right _ _))

theorem timerBits_lt (p : Config.Params) (n : Nat) : timerBits p n < 2 ^ p.tmrW :=
  Nat.mod_lt _ (Nat.two_pow_pos _)

/-- A count up to the deadline is not cut. -/
theorem timerBits_of_le_deadline {p : Config.Params} {n : Nat} (h : n ≤ p.deadline) : timerBits p n = n :=
  Nat.mod_eq_of_lt (lt_of_le_of_lt h (deadline_lt_two_pow p))

/-- The bit that a one-hot mask has (41_frame_timer.md R129). -/
theorem getLsbD_oneHot (k i : Nat) : (oneHot k).getLsbD i = decide (i < 64 ∧ i = k) := by
  have h : oneHot k = BitVec.twoPow 64 k := by simp [oneHot, BitVec.twoPow_eq]
  rw [h, BitVec.getLsbD_twoPow]
  by_cases hk : k = i
  · subst hk; simp
  · simp [hk, Ne.symm hk]

/-- `rev8` in words: bit i of the result is bit 7 - i (42_serializer.md R146). -/
theorem getLsbD_rev8 (b : Byte) {i : Nat} (h : i < 8) : (rev8 b).getLsbD i = b.getLsbD (7 - i) := by
  unfold rev8
  revert b
  interval_cases i <;> decide

/-- No meaning refuses. -/
theorem exec_ne_refused (i : Instr) (s : State) (r : Refusal) : exec i s ≠ .refused r := by
  have guarded : ∀ run : State → Result, (∀ u, run u ≠ .refused r) → unlessFaulted s run ≠ .refused r := by
    intro run h
    cases hf : s.fault with
    | none => rw [unlessFaulted_of_none hf]; exact h s
    | some f => rw [unlessFaulted_of_some hf]; exact fun e => nomatch e
  have valid : ∀ b u, validBit b u ≠ .refused r := by
    intro b u
    cases ho : pulseOverflows u with
    | false => rw [validBit_of_room b ho]; exact fun e => nomatch e
    | true => rw [validBit_of_full b ho]; exact fun e => nomatch e
  cases i with
  | reset => exact fun e => nomatch e
  | sampleBit0 prev => exact guarded _ fun u => valid _ _
  | sampleBit1 prev => exact guarded _ fun u => valid _ _
  | _ => exact guarded (fun u => .next _) fun u e => nomatch e

/-! ## Counts and their low bits (41_frame_timer.md R124; 00_scope.md R14) -/

theorem odd_iff (n : BitVec 6) : n.getLsbD 0 = true ↔ n.toNat % 2 = 1 := by revert n; decide

theorem lowCount_zero_iff (n : BitVec 6) : lowCount n = 0#2 ↔ n.toNat % 4 = 0 := by revert n; decide

theorem lowCount_two_iff (n : BitVec 6) : lowCount n = 2#2 ↔ n.toNat % 4 = 2 := by revert n; decide

theorem bump_toNat (n : BitVec 6) (h : n ≠ 63#6) : (n + 1#6).toNat = n.toNat + 1 := by revert n; decide

theorem bump_ne_zero (n : BitVec 6) (h : n ≠ 63#6) : n + 1#6 ≠ 0#6 := by revert n; decide

/-- An even count makes an even length byte of at most 62 (30_encoding.md R76). -/
theorem lengthByte_even (n : BitVec 6) (h : n.toNat % 2 = 0) :
    (lengthByte n).toNat % 2 = 0 ∧ (lengthByte n).toNat ≤ 62 := by revert n; decide

/-- With room in the counter the position that a pulse appends at is not the last (R106). -/
theorem count_has_room {s : State} (h : pulseOverflows s = false) : (bif s.rdy then 0#6 else s.cnt) ≠ 63#6 := by
  intro hc
  cases hr : s.rdy with
  | true => simp [hr] at hc
  | false =>
    rw [hr] at hc
    rw [(pulseOverflows_iff s).2 ⟨hr, hc⟩] at h
    cases h

end Sys2Proof.Machine
end

