-- ==== Sys2Proof/Laws/Tick.lean ====
section
/-! SUPPORT. What the three parts of a tick can do, said once as functions of the state (60_exceptions.md R190), and the
inversion of a tick and of a step. -/

namespace Sys2Proof.Machine

/-! ## Part 1: the sampler -/

/-- The operation is the both-lines-idle stop. -/
def isIdleStop : Instr → Bool
  | .sampleIdle _ => true
  | _ => false

/-- The transition is one of the idle-stop set (40_sampler.md R107). -/
def idleStops (stop : Config.IdleStopSet) (prev cur : LinePair) : Bool := (lineInstr stop prev cur).any isIdleStop

/-- The four line pairs (30_encoding.md R71). -/
theorem linePair_cases (cur : LinePair) :
    cur = LinePair.HL ∨ cur = LinePair.LH ∨ cur = LinePair.LL ∨ cur = LinePair.HH := by
  revert cur; decide

/-- What a transition that is no valid pulse leaves (R107, R108, R109, R113). -/
def afterQuiet (p : Pins) (s : State) : State :=
  latchLines (linesOf p) (bif idleStops s.params.idleStop s.linePrev (linesOf p) then stopTimer s else s)

/-- What a valid pulse leaves when the counter has room (R102, R103, R104, R113). -/
def afterPulse (p : Pins) (s : State) : State := counted (linesOf p == LinePair.LH) (latchLines (linesOf p) s)

/-- The operation of a transition, by the pair after it (30_encoding.md R71, R88). -/
theorem lineInstr_by_cur {stop : Config.IdleStopSet} {prev cur : LinePair} {i : Instr}
    (hi : lineInstr stop prev cur = some i) :
    (cur = LinePair.HL ∧ i = .sampleBit0 prev) ∨ (cur = LinePair.LH ∧ i = .sampleBit1 prev) ∨
    (cur = LinePair.HH ∧ (i = .sampleEnd0 ∨ i = .sampleEnd1)) ∨
    (isPulse cur = false ∧ ∃ move : QuietMove, move.cur = cur ∧ i = quietInstr stop move) := by
  rcases linePair_cases cur with rfl | rfl | rfl | rfl <;> rcases linePair_cases prev with rfl | rfl | rfl | rfl <;>
    simp only [lineInstr, LinePair.HH, LinePair.HL, LinePair.LH, LinePair.LL, reduceIte, BitVec.reduceEq,
      Option.some.injEq, reduceCtorEq] at hi <;> subst hi
  · exact .inl ⟨rfl, rfl⟩
  · exact .inl ⟨rfl, rfl⟩
  · exact .inl ⟨rfl, rfl⟩
  · exact .inr (.inl ⟨rfl, rfl⟩)
  · exact .inr (.inl ⟨rfl, rfl⟩)
  · exact .inr (.inl ⟨rfl, rfl⟩)
  · exact .inr (.inr (.inr ⟨rfl, .hlToLl, rfl, rfl⟩))
  · exact .inr (.inr (.inr ⟨rfl, .lhToLl, rfl, rfl⟩))
  · exact .inr (.inr (.inr ⟨rfl, .hhToLl, rfl, rfl⟩))
  · exact .inr (.inr (.inl ⟨rfl, .inl rfl⟩))
  · exact .inr (.inr (.inl ⟨rfl, .inr rfl⟩))
  · exact .inr (.inr (.inr ⟨rfl, .llToHh, rfl, rfl⟩))

/-- The meaning of a transition's operation: `ValidBit` for a valid pulse, else the quiet effect. -/
theorem exec_lineInstr {stop : Config.IdleStopSet} {prev cur : LinePair} {i : Instr} {s : State}
    (hi : lineInstr stop prev cur = some i) (hf : s.fault = none) :
    exec i s =
      if isPulse cur then validBit (cur == LinePair.LH) (latchLines cur s)
      else .next (latchLines cur (bif idleStops stop prev cur then stopTimer s else s)) := by
  have hidle : idleStops stop prev cur = isIdleStop i := by simp [idleStops, hi]
  rw [hidle]
  rcases lineInstr_by_cur hi with ⟨rfl, rfl⟩ | ⟨rfl, rfl⟩ | ⟨rfl, rfl | rfl⟩ | ⟨hp, move, rfl, rfl⟩
  · exact exec_sampleBit0 hf prev
  · exact exec_sampleBit1 hf prev
  · exact exec_sampleEnd0 hf
  · exact exec_sampleEnd1 hf
  · rw [hp, if_neg (by decide), quietInstr]
    cases stop.has move with
    | true => exact exec_sampleIdle hf move
    | false => exact exec_sampleNoise hf move

theorem sampler_still {p : Pins} {s : State} (h : linesOf p = s.linePrev) :
    runPart (samplerWord p s) s = .next s := by
  simp [samplerWord, h, runPart]

theorem sampler_moves {p : Pins} {s : State} (h : linesOf p ≠ s.linePrev) (hf : s.fault = none) :
    runPart (samplerWord p s) s =
      if isPulse (linesOf p) then validBit (linesOf p == LinePair.LH) (latchLines (linesOf p) s)
      else .next (afterQuiet p s) := by
  obtain ⟨i, hi⟩ := lineInstr_isSome s.params.idleStop (Ne.symm h)
  simp only [samplerWord, if_neg h, runPart, runWord, decode_lineWord, hi]
  exact exec_lineInstr hi hf

/-- What part 1 can do when it gives a next state. -/
theorem sampler_next {p : Pins} {s t : State} (hf : s.fault = none) (h : runPart (samplerWord p s) s = .next t) :
    (linesOf p = s.linePrev ∧ restarts p s = false ∧ t = s) ∨
    (linesOf p ≠ s.linePrev ∧ restarts p s = false ∧ t = afterQuiet p s) ∨
    (linesOf p ≠ s.linePrev ∧ restarts p s = true ∧ pulseOverflows s = false ∧ t = afterPulse p s) := by
  by_cases hm : linesOf p = s.linePrev
  · rw [sampler_still hm] at h
    injection h with h
    exact .inl ⟨hm, by simp [restarts, hm], h.symm⟩
  · rw [sampler_moves hm hf] at h
    cases hp : isPulse (linesOf p) with
    | false =>
      rw [hp] at h
      injection h with h
      exact .inr (.inl ⟨hm, by simp [restarts, hp], h.symm⟩)
    | true =>
      rw [hp, if_pos rfl] at h
      obtain ⟨ho, ht⟩ := validBit_next h
      exact .inr (.inr ⟨hm, by simp [restarts, hp, hm], by simpa using ho, ht⟩)

/-- Part 1 faults only on a valid pulse that finds the counter full (R106). -/
theorem sampler_fault {p : Pins} {s : State} {f : Fault} (hf : s.fault = none)
    (h : runPart (samplerWord p s) s = .fault f) :
    restarts p s = true ∧ pulseOverflows s = true ∧ f = .counterOverflow := by
  by_cases hm : linesOf p = s.linePrev
  · rw [sampler_still hm] at h; cases h
  · rw [sampler_moves hm hf] at h
    cases hp : isPulse (linesOf p) with
    | false => rw [hp] at h; cases h
    | true =>
      rw [hp, if_pos rfl] at h
      cases ho : pulseOverflows s with
      | false => rw [validBit_of_room _ (by simpa using ho)] at h; cases h
      | true =>
        rw [validBit_of_full _ (by simpa using ho)] at h
        injection h with h
        exact ⟨by simp [restarts, hm, hp], rfl, h.symm⟩

/-! ## Part 2: the timer -/

/-- What a timeout leaves (41_frame_timer.md R124 to R127). -/
def afterTimeout (s : State) : State :=
  bif s.cnt.getLsbD 0 then clearAcc (clearCnt (stopTimer s))
  else bif lowCount s.cnt == 0#2 then finalize (stopTimer s)
  else finalize (stripAcc (stopTimer s))

/-- What part 2 leaves (R190). -/
def afterTimer (restarted : Bool) (s : State) : State :=
  bif s.tmrRun && !restarted then (bif atDeadline s then afterTimeout s else bumpTimer s) else s

theorem exec_expireInstr {s : State} (hf : s.fault = none) :
    exec (expireInstr (lowCount s.cnt)) s = .next (afterTimeout s) := by
  have hodd : (lowCount s.cnt).getLsbD 0 = s.cnt.getLsbD 0 := by simp [lowCount]
  cases hb : s.cnt.getLsbD 0 with
  | true =>
    simp only [expireInstr, hodd, hb, if_true, afterTimeout, cond_true]
    exact exec_tmoDiscard hf _
  | false =>
    by_cases hz : lowCount s.cnt = 0#2
    · have he : expireInstr (lowCount s.cnt) = .tmoFinal := by rw [hz]; rfl
      have hr : (lowCount s.cnt == 0#2) = true := by simpa using hz
      simp only [he, afterTimeout, hb, hr, cond_true, cond_false]
      exact exec_tmoFinal hf
    · have he : expireInstr (lowCount s.cnt) = .tmoStrip := by rw [expireInstr, hodd, hb]; simp [hz]
      have hr : (lowCount s.cnt == 0#2) = false := by simpa using hz
      simp only [he, afterTimeout, hb, hr, cond_false]
      exact exec_tmoStrip hf

theorem timer_runs {r : Bool} {s : State} (hf : s.fault = none) :
    runPart (timerWord r s) s = .next (afterTimer r s) := by
  unfold timerWord afterTimer
  cases hg : (s.tmrRun && !r) with
  | false => rfl
  | true =>
    cases hd : atDeadline s with
    | true =>
      simp only [if_true, runPart, runWord, decode_expireWord, cond_true]
      exact exec_expireInstr hf
    | false =>
      simp only [if_true, runPart, runWord, cond_true, cond_false, Bool.false_eq_true, if_false, decode_countWord]
      exact exec_tmrTick hf

/-! ## Part 3: the serializer -/

/-- What a falling edge of `sck` leaves (42_serializer.md R142 to R145). -/
def afterSckFall (s : State) : State :=
  bif s.spiCnt == 7#3 then latchSck false (txByte (markTxPend (clearSpi (shiftOut s))))
  else latchSck false (bumpSpi (shiftOut s))

/-- What part 3 leaves (R190). -/
def afterSerial (p : Pins) (s : State) : State := bif sckFalls p s then afterSckFall s else s

theorem exec_spiInstr {s : State} (hf : s.fault = none) :
    exec (spiInstr s.spiCnt) s = .next (afterSckFall s) := by
  by_cases h7 : s.spiCnt = 7#3
  · have he : spiInstr s.spiCnt = .spiByte := by simp [spiInstr, h7]
    have hr : (s.spiCnt == 7#3) = true := by simpa using h7
    simp only [he, afterSckFall, hr, cond_true]
    exact exec_spiByte hf
  · have he : spiInstr s.spiCnt = .spiShift s.spiCnt := by simp [spiInstr, h7]
    have hr : (s.spiCnt == 7#3) = false := by simpa using h7
    simp only [he, afterSckFall, hr, cond_false]
    exact exec_spiShift hf _

theorem serial_runs {p : Pins} {s : State} (hf : s.fault = none) :
    runPart (serialWord p s) s = .next (afterSerial p s) := by
  unfold serialWord afterSerial
  cases hg : sckFalls p s with
  | false => rfl
  | true =>
    simp only [if_true, runPart, runWord, decode_spiWord, cond_true]
    exact exec_spiInstr hf

/-! ## What the parts keep -/

@[simp] theorem afterTimeout_fault (s : State) : (afterTimeout s).fault = s.fault := by
  unfold afterTimeout
  cases s.cnt.getLsbD 0 <;> cases lowCount s.cnt == 0#2 <;> simp

@[simp] theorem afterTimer_fault (r : Bool) (s : State) : (afterTimer r s).fault = s.fault := by
  unfold afterTimer
  cases (s.tmrRun && !r) <;> cases atDeadline s <;> simp

@[simp] theorem afterSckFall_fault (s : State) : (afterSckFall s).fault = s.fault := by
  unfold afterSckFall
  cases s.spiCnt == 7#3 <;> simp

@[simp] theorem afterSerial_fault (p : Pins) (s : State) : (afterSerial p s).fault = s.fault := by
  unfold afterSerial
  cases sckFalls p s <;> simp

@[simp] theorem afterQuiet_fault (p : Pins) (s : State) : (afterQuiet p s).fault = s.fault := by
  unfold afterQuiet
  cases idleStops s.params.idleStop s.linePrev (linesOf p) <;> simp

@[simp] theorem afterPulse_fault (p : Pins) (s : State) : (afterPulse p s).fault = s.fault := by
  simp [afterPulse]

/-! ## A tick and a step -/

/-- Parts 2 and 3 together (R187, R190). -/
theorem afterSampler_runs {p : Pins} {r : Bool} {s : State} (hf : s.fault = none) :
    afterSampler p r s = .next (latchSck p.sck (afterSerial p (afterTimer r s))) := by
  simp only [afterSampler, timer_runs hf, andThen_next]
  rw [serial_runs (by simpa using hf)]
  rfl

/-- What a tick can do when it gives a next state (R190). -/
theorem tick_next {p : Pins} {s t : State} (h : tick p s = .next t) :
    (p.rst = true ∧ t = resetState s) ∨
    (p.rst = false ∧ s.fault ≠ none ∧ t = s) ∨
    (p.rst = false ∧ s.fault = none ∧ restarts p s = true ∧ pulseOverflows s = true ∧
      t = recordFault .counterOverflow (linesOf p) s) ∨
    (p.rst = false ∧ s.fault = none ∧ ∃ s1, runPart (samplerWord p s) s = .next s1 ∧ s1.fault = none ∧
      t = latchSck p.sck (afterSerial p (afterTimer (restarts p s) s1))) := by
  unfold tick at h
  cases hr : p.rst with
  | true =>
    simp only [hr, if_true, runWord, decode_resetWord] at h
    injection h with h
    exact .inl ⟨rfl, h.symm⟩
  | false =>
    simp only [hr, Bool.false_eq_true, if_false] at h
    cases hf : s.fault with
    | some f =>
      simp only [hf] at h
      injection h with h
      exact .inr (.inl ⟨rfl, by simp, h.symm⟩)
    | none =>
      simp only [hf] at h
      cases hs : runPart (samplerWord p s) s with
      | refused r => simp only [hs] at h; cases h
      | fault f =>
        simp only [hs] at h
        injection h with h
        obtain ⟨h1, h2, rfl⟩ := sampler_fault hf hs
        exact .inr (.inr (.inl ⟨rfl, rfl, h1, h2, h.symm⟩))
      | next s1 =>
        have hf1 : s1.fault = none := by
          rcases sampler_next hf hs with ⟨-, -, rfl⟩ | ⟨-, -, rfl⟩ | ⟨-, -, -, rfl⟩ <;> simpa using hf
        simp only [hs] at h
        rw [afterSampler_runs hf1] at h
        injection h with h
        exact .inr (.inr (.inr ⟨rfl, rfl, s1, rfl, hf1, h.symm⟩))

/-- A tick whose part 1 gives a next state runs parts 2 and 3 on it (R190). -/
theorem tick_of_sampler {p : Pins} {s s1 : State} (hr : p.rst = false) (hf : s.fault = none)
    (hs : runPart (samplerWord p s) s = .next s1) :
    tick p s = .next (latchSck p.sck (afterSerial p (afterTimer (restarts p s) s1))) := by
  have hf1 : s1.fault = none := by
    rcases sampler_next hf hs with ⟨-, -, rfl⟩ | ⟨-, -, rfl⟩ | ⟨-, -, -, rfl⟩ <;> simpa using hf
  simp only [tick, hr, Bool.false_eq_true, if_false, hf, hs]
  exact afterSampler_runs hf1

theorem tick_reset {p : Pins} (hr : p.rst = true) (s : State) : tick p s = .next (resetState s) := by
  simp only [tick, hr, if_true, runWord, decode_resetWord]
  rfl

/-- While a fault stands a tick without reset changes nothing (R190, D24). -/
theorem tick_faulted {p : Pins} {s : State} (hr : p.rst = false) (hf : s.fault ≠ none) : tick p s = .next s := by
  cases h : s.fault with
  | none => exact absurd h hf
  | some f => simp only [tick, hr, Bool.false_eq_true, if_false, h]

/-! ## Each part as a case list -/

@[simp] theorem afterPulse_cnt (p : Pins) (s : State) : (afterPulse p s).cnt = (bif s.rdy then 0#6 else s.cnt) + 1#6 := by simp [afterPulse]
@[simp] theorem afterPulse_acc (p : Pins) (s : State) : (afterPulse p s).acc =
    (bif s.rdy then 0#64 else s.acc) |||
      (bif linesOf p == LinePair.LH then oneHot (bif s.rdy then 0#6 else s.cnt).toNat else 0#64) := by
  simp [afterPulse]
@[simp] theorem afterPulse_len (p : Pins) (s : State) : (afterPulse p s).len = s.len := by simp [afterPulse]
@[simp] theorem afterPulse_rdy (p : Pins) (s : State) : (afterPulse p s).rdy = false := by simp [afterPulse]
@[simp] theorem afterPulse_sr (p : Pins) (s : State) : (afterPulse p s).sr = s.sr := by simp [afterPulse]
@[simp] theorem afterPulse_spiCnt (p : Pins) (s : State) : (afterPulse p s).spiCnt = s.spiCnt := by simp [afterPulse]
@[simp] theorem afterPulse_tmrRun (p : Pins) (s : State) : (afterPulse p s).tmrRun = true := by simp [afterPulse]
@[simp] theorem afterPulse_tmrCnt (p : Pins) (s : State) : (afterPulse p s).tmrCnt = 0 := by simp [afterPulse]
@[simp] theorem afterPulse_txPend (p : Pins) (s : State) : (afterPulse p s).txPend = s.txPend := by simp [afterPulse]
@[simp] theorem afterPulse_linePrev (p : Pins) (s : State) : (afterPulse p s).linePrev = linesOf p := by simp [afterPulse]
@[simp] theorem afterPulse_sckPrev (p : Pins) (s : State) : (afterPulse p s).sckPrev = s.sckPrev := by simp [afterPulse]
@[simp] theorem afterPulse_params (p : Pins) (s : State) : (afterPulse p s).params = s.params := by simp [afterPulse]
@[simp] theorem afterPulse_inputs (p : Pins) (s : State) : (afterPulse p s).inputs = s.inputs := by simp [afterPulse]
@[simp] theorem afterPulse_tickNo (p : Pins) (s : State) : (afterPulse p s).tickNo = s.tickNo := by simp [afterPulse]

/-- A transition that is no pulse stops the timer or leaves all but the latch (R107, R108, R109). -/
theorem afterQuiet_cases (p : Pins) (s : State) :
    (afterQuiet p s = latchLines (linesOf p) (stopTimer s) ∧
      idleStops s.params.idleStop s.linePrev (linesOf p) = true) ∨
    (afterQuiet p s = latchLines (linesOf p) s ∧ idleStops s.params.idleStop s.linePrev (linesOf p) = false) := by
  unfold afterQuiet
  cases idleStops s.params.idleStop s.linePrev (linesOf p) <;> simp

/-- What part 1 leaves when it raises no fault (R190). -/
def sampled (p : Pins) (s : State) : State :=
  bif linesOf p == s.linePrev then s else bif isPulse (linesOf p) then afterPulse p s else afterQuiet p s

theorem sampled_cases (p : Pins) (s : State) :
    (linesOf p = s.linePrev ∧ restarts p s = false ∧ sampled p s = s) ∨
    (linesOf p ≠ s.linePrev ∧ restarts p s = false ∧ sampled p s = afterQuiet p s) ∨
    (linesOf p ≠ s.linePrev ∧ restarts p s = true ∧ sampled p s = afterPulse p s) := by
  by_cases hm : linesOf p = s.linePrev
  · exact .inl ⟨hm, by simp [restarts, hm], by simp [sampled, hm]⟩
  · have hb : (linesOf p == s.linePrev) = false := by simpa using hm
    cases hp : isPulse (linesOf p) with
    | false => exact .inr (.inl ⟨hm, by simp [restarts, hp], by simp [sampled, hb, hp]⟩)
    | true => exact .inr (.inr ⟨hm, by simp [restarts, hp, hm], by simp [sampled, hb, hp]⟩)

/-- Part 1 as a function: the fault on the 64th pulse, else `sampled` (R106, R190). -/
theorem sampler_eq {p : Pins} {s : State} (hf : s.fault = none) :
    runPart (samplerWord p s) s =
      if restarts p s = true ∧ pulseOverflows s = true then .fault .counterOverflow else .next (sampled p s) := by
  by_cases hm : linesOf p = s.linePrev
  · rw [sampler_still hm]; simp [sampled, hm, restarts]
  · rw [sampler_moves hm hf]
    have hb : (linesOf p == s.linePrev) = false := by simpa using hm
    cases hp : isPulse (linesOf p) with
    | false => simp [restarts, hp, sampled, hb]
    | true =>
      cases ho : pulseOverflows s with
      | false => rw [validBit_of_room _ (by simpa using ho)]; simp [restarts, hm, hp, sampled, afterPulse, hb]
      | true => rw [validBit_of_full _ (by simpa using ho)]; simp [restarts, hm, hp]

/-- What part 2 can do (41_frame_timer.md R122 to R127). -/
theorem afterTimer_cases (r : Bool) (s : State) :
    ((s.tmrRun = false ∨ r = true) ∧ afterTimer r s = s) ∨
    (s.tmrRun = true ∧ r = false ∧ s.tmrCnt + 1 ≠ s.params.deadline ∧ afterTimer r s = bumpTimer s) ∨
    (s.tmrRun = true ∧ r = false ∧ s.tmrCnt + 1 = s.params.deadline ∧
      ((s.cnt.toNat % 2 = 1 ∧ afterTimer r s = clearAcc (clearCnt (stopTimer s))) ∨
       (s.cnt.toNat % 4 = 0 ∧ afterTimer r s = finalize (stopTimer s)) ∨
       (s.cnt.toNat % 4 = 2 ∧ afterTimer r s = finalize (stripAcc (stopTimer s))))) := by
  unfold afterTimer
  cases hr : s.tmrRun with
  | false => simp
  | true =>
    cases r with
    | true => simp
    | false =>
      by_cases hd : s.tmrCnt + 1 = s.params.deadline
      · refine .inr (.inr ⟨rfl, rfl, hd, ?_⟩)
        have ha : atDeadline s = true := by simpa [atDeadline] using hd
        simp only [ha, afterTimeout, Bool.not_false, Bool.and_self, cond_true]
        by_cases ho : s.cnt.toNat % 2 = 1
        · exact .inl ⟨ho, by rw [(odd_iff _).2 ho]; rfl⟩
        · have hb : s.cnt.getLsbD 0 = false := by
            cases h : s.cnt.getLsbD 0 with
            | false => rfl
            | true => exact absurd ((odd_iff _).1 h) ho
          rw [hb]
          by_cases h4 : s.cnt.toNat % 4 = 0
          · exact .inr (.inl ⟨h4, by simp [(lowCount_zero_iff _).2 h4]⟩)
          · have hz : (lowCount s.cnt == 0#2) = false := by
              simpa using fun h => h4 ((lowCount_zero_iff _).1 h)
            exact .inr (.inr ⟨by omega, by simp [hz]⟩)
      · refine .inr (.inl ⟨rfl, rfl, hd, ?_⟩)
        have ha : atDeadline s = false := by simpa [atDeadline] using hd
        simp [ha]

/-- What part 3 can do (42_serializer.md R142 to R145). -/
theorem afterSerial_cases (p : Pins) (s : State) :
    (sckFalls p s = false ∧ afterSerial p s = s) ∨
    (sckFalls p s = true ∧ s.spiCnt = 7#3 ∧
      afterSerial p s = latchSck false (txByte (markTxPend (clearSpi (shiftOut s))))) ∨
    (sckFalls p s = true ∧ s.spiCnt ≠ 7#3 ∧ afterSerial p s = latchSck false (bumpSpi (shiftOut s))) := by
  unfold afterSerial afterSckFall
  cases h : sckFalls p s with
  | false => simp
  | true =>
    by_cases h7 : s.spiCnt = 7#3
    · simp [h7]
    · have h8 : (s.spiCnt == 7#3) = false := by simpa using h7
      simp [h7, h8]

/-- The state that a tick without reset leaves when no fault stands and none is raised (R190). -/
def ticked (p : Pins) (s : State) : State :=
  latchSck p.sck (afterSerial p (afterTimer (restarts p s) (sampled p s)))

/-- A tick without reset on a machine without a standing fault (R190). -/
theorem tick_eq {p : Pins} {s : State} (hr : p.rst = false) (hf : s.fault = none) :
    tick p s =
      if restarts p s = true ∧ pulseOverflows s = true then .next (recordFault .counterOverflow (linesOf p) s)
      else .next (ticked p s) := by
  have he := sampler_eq (p := p) hf
  split
  · next h => rw [if_pos h] at he; simp [tick, hr, hf, he]
  · next h => rw [if_neg h] at he; exact tick_of_sampler hr hf he

/-- Inversion of a tick that starts and ends without a fault: a reset, or the three parts. -/
theorem tick_ok {p : Pins} {s t : State} (h : tick p s = .next t) (hf : s.fault = none) (ht : t.fault = none) :
    (p.rst = true ∧ t = resetState s) ∨
    (p.rst = false ∧ ¬ (restarts p s = true ∧ pulseOverflows s = true) ∧ t = ticked p s) := by
  cases hr : p.rst with
  | true => rw [tick_reset hr] at h; injection h with h; exact .inl ⟨rfl, h.symm⟩
  | false =>
    rw [tick_eq hr hf] at h
    split at h
    · injection h with h; subst h; simp at ht
    · injection h with h; exact .inr ⟨rfl, by assumption, h.symm⟩

end Sys2Proof.Machine
end

