-- ==== Sys2Proof/Laws/Event.lean ====
section
/-! SUPPORT. What each event does, said once (60_exceptions.md R194), and that traces compose. -/

namespace Sys2Proof.Machine

/-- An expiry event runs the timeout operation of the count (41_frame_timer.md R124). -/
theorem eventStep_expire {s : State} (hf : s.fault = none) (ht : s.tmrRun = true) :
    eventStep .expire s = .next (afterTimeout s) := by
  have he : eventEnabled s .expire = true := ht
  unfold eventStep
  rw [if_neg (by simp), hf]
  simp only [he, if_true, eventWord, runWord, decode_expireWord, exec_expireInstr hf]

/-- A falling edge of `sck` runs the serializer (42_serializer.md R142). -/
theorem eventStep_sckFall {s : State} (hf : s.fault = none) : eventStep .sckFall s = .next (afterSckFall s) := by
  have he : eventEnabled s .sckFall = true := rfl
  unfold eventStep
  rw [if_neg (by simp), hf]
  simp only [he, if_true, eventWord, runWord, decode_spiWord, exec_spiInstr hf]

/-- A line event does what part 1 of a tick does on a sample with those lines (40_sampler.md R101). -/
theorem eventStep_line {p : Pins} {s : State} (hf : s.fault = none) (hl : linesOf p ≠ s.linePrev)
    (ho : ¬ (restarts p s = true ∧ pulseOverflows s = true)) :
    eventStep (.line (linesOf p)) s = .next (sampled p s) := by
  have h := sampler_eq (p := p) hf
  rw [if_neg ho, samplerWord, if_neg hl] at h
  have he : eventEnabled s (.line (linesOf p)) = true := by simpa [eventEnabled] using hl
  unfold eventStep
  rw [if_neg (by simp), hf]
  change runWord _ s = _ at h
  simp only [he, if_true, eventWord, h]

/-- The lines of a sample that was made to show them. -/
theorem linesOf_sampleWith (rst : Bool) (cur : LinePair) (sck : Bool) : linesOf (sampleWith rst cur sck) = cur := by
  revert cur
  cases rst <;> cases sck <;> decide

theorem runEvents_append (a b : List Event) (s : State) :
    runEvents (a ++ b) s = andThen (runEvents a s) (runEvents b) := by
  induction a generalizing s with
  | nil => rfl
  | cons e es ih =>
    change andThen (eventStep e s) (runEvents (es ++ b)) =
      andThen (andThen (eventStep e s) (runEvents es)) (runEvents b)
    cases eventStep e s with
    | next u => exact ih u
    | fault f => rfl
    | refused r => rfl

theorem runEvents_one (e : Event) (s : State) : runEvents [e] s = eventStep e s := by
  change andThen (eventStep e s) (runEvents []) = _
  cases eventStep e s <;> rfl

end Sys2Proof.Machine
end

