-- ==== Sys2Proof/Laws/Safety.lean ====
section
/-! SUPPORT. What becomes of the host's transfer at a tick, case by case (70_reset_and_hazards.md R220, R221). -/

namespace Sys2Proof.Machine

variable {p : Pins} {s : State} (f : Fetch)

theorem Fetch.after_reset (hr : p.rst = true) : f.after p s = .waiting := by simp [Fetch.after, hr]

theorem Fetch.after_pulse (hp : pulseSeen p s = true) : f.after p s = .waiting := by simp [Fetch.after, hp]

theorem Fetch.after_fall (hr : p.rst = false) (hp : pulseSeen p s = false) (hs : sckFalls p s = true) :
    f.after p s = f.edge s.len := by
  simp [Fetch.after, hr, hp, hs]

theorem Fetch.after_still (hr : p.rst = false) (hp : pulseSeen p s = false) (hs : sckFalls p s = false) :
    f.after p s = f := by
  simp [Fetch.after, hr, hp, hs]

@[simp] theorem Fetch.edge_waiting (len : Byte) : Fetch.waiting.edge len = .under (transferEdges len - 1) := rfl

@[simp] theorem Fetch.edge_under (len : Byte) (left : Nat) : (Fetch.under left).edge len = .under (left - 1) := rfl

/-- A whole transfer is at least the length byte, and no payload bit lies beyond its bytes. -/
theorem payloadBits_le_transfer (len : Byte) : payloadBits len.toNat + 8 ≤ transferEdges len := by
  unfold transferEdges payloadBytes; omega

end Sys2Proof.Machine
end

