-- ==== Sys2Proof/Tests/Slice0.lean ====
section
/-! SUPPORT. Tests against the spec's own examples, words written out from its encodings, ill-formed instructions that the
check refuses, and for every obligation with hypotheses a state and operands that meet them. -/

namespace Sys2Proof.Tests

open Sys2Proof.Machine

/-! ## Words written out bit by bit (30_encoding.md R84, R88) -/

theorem test_decode_bit0 : decode Config.defaultIdleStop 0b00001110#8 = .op (.sampleBit0 0b11#2) := by decide
theorem test_decode_bit1 : decode Config.defaultIdleStop 0b00001001#8 = .op (.sampleBit1 0b10#2) := by decide
theorem test_decode_idle : decode Config.defaultIdleStop 0b00000011#8 = .op (.sampleIdle .llToHh) := by decide
theorem test_decode_end0 : decode Config.defaultIdleStop 0b00001011#8 = .op .sampleEnd0 := by decide
theorem test_decode_end1 : decode Config.defaultIdleStop 0b00000111#8 = .op .sampleEnd1 := by decide
theorem test_decode_noise : decode Config.defaultIdleStop 0b00001100#8 = .op (.sampleNoise .hhToLl) := by decide
theorem test_decode_tick : decode Config.defaultIdleStop 0b01000000#8 = .op .tmrTick := by decide
theorem test_decode_discard : decode Config.defaultIdleStop 0b01010011#8 = .op (.tmoDiscard 0b11#2) := by decide
theorem test_decode_final : decode Config.defaultIdleStop 0b01010000#8 = .op .tmoFinal := by decide
theorem test_decode_strip : decode Config.defaultIdleStop 0b01010010#8 = .op .tmoStrip := by decide
theorem test_decode_shift : decode Config.defaultIdleStop 0b10000110#8 = .op (.spiShift 0b110#3) := by decide
theorem test_decode_byte : decode Config.defaultIdleStop 0b10000111#8 = .op .spiByte := by decide
theorem test_decode_reset : decode Config.defaultIdleStop 0b11000000#8 = .op .reset := by decide

/-- 95_test_vectors.md program 4, its last sentence: another idle-stop set moves the two words. -/
theorem test_decode_other_idle_stop :
    decode ⟨true, false, false, false⟩ 0x0C#8 = .op (.sampleIdle .hhToLl) ∧
    decode ⟨true, false, false, false⟩ 0x03#8 = .op (.sampleNoise .llToHh) := by decide

/-- R87: a reserved word of each group. -/
theorem test_decode_reserved :
    decode Config.defaultIdleStop 0x0A#8 = .reserved .noTransition ∧
    decode Config.defaultIdleStop 0x1E#8 = .reserved .lineHighBits ∧
    decode Config.defaultIdleStop 0x54#8 = .reserved .timerFields ∧
    decode Config.defaultIdleStop 0x88#8 = .reserved .spiFields ∧
    decode Config.defaultIdleStop 0xC1#8 = .reserved .resetFields := by decide

/-! ## An ill-formed instruction for each check (R85, R87, R107) -/

theorem test_illformed_bit0 : (Instr.sampleBit0 LinePair.HL).wf Config.defaultIdleStop = false := by decide
theorem test_illformed_bit1 : (Instr.sampleBit1 LinePair.LH).wf Config.defaultIdleStop = false := by decide
theorem test_illformed_idle : (Instr.sampleIdle .hhToLl).wf Config.defaultIdleStop = false := by decide
theorem test_illformed_noise : (Instr.sampleNoise .llToHh).wf Config.defaultIdleStop = false := by decide
theorem test_illformed_discard : (Instr.tmoDiscard 0b10#2).wf Config.defaultIdleStop = false := by decide
theorem test_illformed_shift : (Instr.spiShift 7#3).wf Config.defaultIdleStop = false := by decide

/-! ## Small states -/

/-- `DEADLINE = 5`, as the spec's tick-level programs have it, and the least `TMR_W` that holds it, 3. -/
def fiveTicks : Config.Params := ⟨4, 0, 1000, Config.defaultIdleStop, Config.defaultClearIndex⟩

/-- The reset state of a machine with `DEADLINE = 5`, with samples to come. -/
def start (inputs : List Pins) : State := State.resetWith fiveTicks inputs 0

/-- A frame of `n` bits with accumulator `a` under way. -/
def running (n : BitVec 6) (a : BitVec 64) (t : Nat) (inputs : List Pins) : State :=
  { start inputs with cnt := n, acc := a, tmrRun := true, tmrCnt := t }

/-- Scenario A's frame staged (95_test_vectors.md section 1). -/
def staged (inputs : List Pins) : State :=
  { start inputs with acc := 0x0035634A#64, len := 0x1A#8, sr := 0x1A#8, rdy := true }

/-- A recorded fault. -/
def faulted (inputs : List Pins) : State := { start inputs with fault := some .counterOverflow }

/-- A sample, `rst d1 d0 sck` (R92). -/
def pins (rst d1 d0 sck : Bool) : Pins := ⟨rst, d1, d0, sck⟩

def idlePins : Pins := pins false true true false
def zeroPulse : Pins := pins false true false false
def onePulse : Pins := pins false false true false
def bothLow : Pins := pins false false false false

/-- The next state of an answer, for reading its fields. -/
def after (r : Result) : State :=
  match r with
  | .next s => s
  | .fault _ => start []
  | .refused _ => start []

def isNext (r : Result) : Bool :=
  match r with
  | .next _ => true
  | .fault _ => false
  | .refused _ => false

theorem next_after {r : Result} (h : isNext r = true) : r = .next (after r) := by
  cases r with
  | next s => rfl
  | fault f => cases h
  | refused f => cases h

/-! ## The operations' worked examples -/

/-- 40_sampler.md R102, example. -/
theorem test_bit0 :
    let t := after (runWord 0x0E#8 (running 3#6 0x5#64 7 []))
    t.cnt = 4#6 ∧ t.acc = 0x5#64 ∧ t.tmrRun = true ∧ t.tmrCnt = 0 := by decide

/-- 40_sampler.md R103, example. -/
theorem test_bit1 :
    let t := after (runWord 0x0D#8 { start [] with cnt := 3#6, acc := 0x5#64 })
    t.cnt = 4#6 ∧ t.acc = 0xD#64 ∧ t.tmrRun = true ∧ t.tmrCnt = 0 := by decide

/-- 40_sampler.md R103, example with override. -/
theorem test_bit1_override :
    let t := after (runWord 0x0D#8 (staged []))
    t.rdy = false ∧ t.acc = 0x1#64 ∧ t.cnt = 1#6 ∧ t.tmrRun = true ∧ t.tmrCnt = 0 ∧ t.len = 0x1A#8 ∧
      t.sr = 0x1A#8 := by decide

/-- 40_sampler.md R106: the 64th pulse, recorded by the tick, the lines stored. -/
theorem test_overflow_is_recorded :
    let t := after (step (running 63#6 0#64 0 [zeroPulse]))
    t.fault = some .counterOverflow ∧ t.linePrev = 0b10#2 := by decide

/-- 40_sampler.md R107, example. -/
theorem test_idle :
    let t := after (runWord 0x03#8 (running 5#6 0x13#64 2 []))
    t.tmrRun = false ∧ t.tmrCnt = 2 ∧ t.cnt = 5#6 ∧ t.acc = 0x13#64 := by decide

/-- 40_sampler.md R108, example. -/
theorem test_end0 :
    let t := after (runWord 0x0B#8 (running 4#6 0#64 1 []))
    t.cnt = 4#6 ∧ t.tmrRun = true ∧ t.tmrCnt = 1 := by decide

/-- 40_sampler.md R109, example. -/
theorem test_noise :
    let t := after (runWord 0x08#8 (running 2#6 0#64 3 []))
    t.cnt = 2#6 ∧ t.tmrRun = true ∧ t.tmrCnt = 3 ∧ t.linePrev = 0b00#2 := by decide

/-- 41_frame_timer.md R122, example. -/
theorem test_tick : (after (runWord 0x40#8 (running 1#6 0#64 2 []))).tmrCnt = 3 := by decide

/-- 41_frame_timer.md R125, example (scenario B). -/
theorem test_discard :
    let t := after (runWord 0x51#8 (running 17#6 0x1FFFF#64 4 []))
    t.cnt = 0#6 ∧ t.acc = 0#64 ∧ t.tmrRun = false ∧ t.rdy = false := by decide

/-- 41_frame_timer.md R126, example. -/
theorem test_final :
    let t := after (runWord 0x50#8 (running 8#6 0x4D#64 4 []))
    t.cnt = 0#6 ∧ t.acc = 0x4D#64 ∧ t.len = 0x08#8 ∧ t.sr = 0x08#8 ∧ t.rdy = true ∧ t.tmrRun = false := by decide

/-- 41_frame_timer.md R127, example (scenario A). -/
theorem test_strip :
    let t := after (runWord 0x52#8 (running 26#6 0x026AC695#64 4 []))
    t.acc = 0x0035634A#64 ∧ t.len = 0x1A#8 ∧ t.sr = 0x1A#8 ∧ t.rdy = true ∧ t.cnt = 0#6 ∧ t.tmrRun = false := by
  decide

/-- 41_frame_timer.md R127, corner case: two bits leave nothing. -/
theorem test_strip_two : (after (runWord 0x52#8 (running 2#6 0x3#64 4 []))).acc = 0#64 := by decide

/-- 42_serializer.md R143, example. -/
theorem test_shift :
    let t := after (runWord 0x80#8 { start [] with sr := 0x1A#8 })
    t.sr = 0x34#8 ∧ t.spiCnt = 1#3 := by decide

/-- 42_serializer.md R144, example. -/
theorem test_byte :
    let t := after (runWord 0x87#8 { staged [] with sr := 0x00#8, spiCnt := 7#3 })
    t.sr = 0x52#8 ∧ t.spiCnt = 0#3 ∧ t.rdy = false ∧ t.acc = 0x00003563#64 ∧ t.txPend = false := by decide

/-- 70_reset_and_hazards.md R210, example. -/
theorem test_reset : after (runWord 0xC0#8 (faulted [])) = start [] := by decide

/-! ## Ticks of the spec's programs -/

/-- 95_test_vectors.md program 2 (a), tick 6: the pulse in the tick of the deadline wins. -/
theorem test_program2_tick6 :
    let t := after (step (running 1#6 0x1#64 4 [zeroPulse]))
    t.cnt = 2#6 ∧ t.acc = 0x1#64 ∧ t.tmrRun = true ∧ t.tmrCnt = 0 := by decide

/-- 95_test_vectors.md program 2 (a), tick 11: the strip of a two-bit frame. -/
theorem test_program2_tick11 :
    let t := after (step (running 2#6 0x1#64 4 [idlePins]))
    t.cnt = 0#6 ∧ t.acc = 0#64 ∧ t.tmrRun = false ∧ t.tmrCnt = 4 ∧ t.sr = 0x02#8 ∧ ready t = true := by decide

/-- The host's placing: a table word runs at the next step after reset (log entry 5). -/
theorem test_placed_word :
    (after (step (State.reset.withFetchWord 8 0x01))).acc = 1#64 ∧
    (after (step (State.reset.withFetchWord 8 0x40))).tmrCnt = 1 ∧
    (after (step (State.reset.withFetchWord 8 0x50))).rdy = true ∧
    (after (step (State.reset.withFetchWord 8 0x80))).spiCnt = 1#3 := by decide

theorem test_table_word :
    decodeTableWord 8 0x51 = some (.tmoDiscard 0b01#2) ∧ decodeTableWord 8 0x00 = none := by decide

/-! ## Witnesses: the operations -/

theorem witness_SampleBit0CountsAndRestartsTimer :
    LinePair.HH ≠ LinePair.HL ∧ (running 62#6 0#64 0 []).fault = none ∧ (running 62#6 0#64 0 []).rdy = false ∧
    (running 62#6 0#64 0 []).cnt ≠ 63#6 ∧ (staged []).fault = none ∧ (staged []).rdy = true ∧
    (running 63#6 0#64 0 []).fault = none ∧ (running 63#6 0#64 0 []).rdy = false ∧
    (running 63#6 0#64 0 []).cnt = 63#6 := by decide

theorem witness_SampleBit1SetsBitAndRestartsTimer :
    LinePair.HH ≠ LinePair.LH ∧ (running 62#6 0#64 0 []).fault = none ∧ (running 62#6 0#64 0 []).rdy = false ∧
    (running 62#6 0#64 0 []).cnt ≠ 63#6 ∧ (staged []).fault = none ∧ (staged []).rdy = true ∧
    (running 63#6 0#64 0 []).fault = none ∧ (running 63#6 0#64 0 []).rdy = false ∧
    (running 63#6 0#64 0 []).cnt = 63#6 := by decide

theorem witness_AppendWritesOnlyTheCountPosition :
    (running 62#6 0#64 0 []).fault = none ∧ (running 62#6 0#64 0 []).rdy = false ∧
    (running 62#6 0#64 0 []).cnt ≠ 63#6 := by decide

theorem witness_CounterOverflowIsRaisedRecordedAndStands :
    (let s := running 63#6 0#64 0 [zeroPulse]
     s.fault = none ∧ (nextSample s).rst = false ∧ pulseSeen (nextSample s) s = true ∧ s.cnt = 63#6 ∧ s.rdy = false) ∧
    (faulted [idlePins]).fault = some .counterOverflow ∧ Instr.spiByte ≠ .reset ∧ (faulted [idlePins]).fault ≠ none ∧
    (nextSample (faulted [idlePins])).rst = false := by decide

theorem witness_SampleIdleStopsTimerAndKeepsBits :
    (running 1#6 0#64 0 []).fault = none ∧ (running 1#6 0#64 0 []).rdy = false ∧
    (running 1#6 0#64 0 []).cnt ≠ 0#6 := by decide

theorem witness_TrailingEdgesChangeNothing : (running 1#6 0#64 0 []).fault = none := by decide

theorem witness_NoiseChangesNothing :
    QuietMove.hhToLl.cur = LinePair.LL ∧ QuietMove.hlToLl.cur = LinePair.LL ∧ QuietMove.lhToLl.cur = LinePair.LL ∧
    (running 1#6 0#64 0 []).fault = none := by decide

theorem witness_TimerTickCountsBelowDeadline :
    (running 1#6 0#64 3 []).fault = none ∧
    (running 1#6 0#64 3 []).tmrCnt < (running 1#6 0#64 3 []).params.deadline ∧
    (running 1#6 0#64 4 []).tmrCnt < (running 1#6 0#64 4 []).params.deadline := by decide

/-- A count that no run reaches wraps in its three bits; and a step with its first hypothesis met. -/
theorem witness_TimerCountStaysInItsWidth :
    fiveTicks.tmrW = 3 ∧ 1 ≤ 5 ∧ 5 < 2 ^ 3 ∧ (running 1#6 0#64 7 [idlePins]).fault = none ∧
    (after (exec .tmrTick (running 1#6 0#64 7 []))).tmrCnt = 0 ∧ (running 1#6 0#64 7 [idlePins]).TimerFits ∧
    ∃ t, step (running 1#6 0#64 7 [idlePins]) = .next t :=
  ⟨by decide, by decide, by decide, by decide, by decide, (by decide : 7 < 2 ^ 3), _, next_after (by decide)⟩

theorem witness_DiscardDropsOddFrame :
    (running 63#6 0#64 4 []).fault = none ∧ (running 63#6 0#64 4 []).rdy = false := by decide

theorem witness_FinalStagesLengthAndKeepsBits : (running 60#6 0#64 4 []).fault = none := by decide

theorem witness_StripThenStagesReceivedLength :
    (running 62#6 0#64 4 []).fault = none ∧
    (running 62#6 0#64 4 []).params.clearIndex = Config.defaultClearIndex ∧
    (running 62#6 0#64 4 []).cnt.toNat % 4 = 2 ∧ (running 2#6 0#64 4 []).cnt.toNat % 4 = 2 ∧
    (running 62#6 0#64 4 []).params.clearIndex[(running 62#6 0#64 4 []).cnt.toNat / 4]? = some 60 ∧
    (running 2#6 0#64 4 []).params.clearIndex[(running 2#6 0#64 4 []).cnt.toNat / 4]? = some 0 := by decide

/-- Two bits, both 1, lie below the count 2. -/
theorem running_two_fits (t : Nat) (inputs : List Pins) : (running 2#6 0x3#64 t inputs).AccFits := by
  intro i hi
  have h2 : 2 ≤ i := hi
  exact Nat.testBit_lt_two_pow (lt_of_lt_of_le (by decide : 3 < 2 ^ 2) (Nat.pow_le_pow_right (by decide) h2))

theorem witness_StripKeepsInnerBitsInOrder :
    (running 2#6 0x3#64 4 []).fault = none ∧
    (running 2#6 0x3#64 4 []).params.clearIndex = Config.defaultClearIndex ∧
    (running 2#6 0x3#64 4 []).cnt.toNat % 4 = 2 ∧ (running 2#6 0x3#64 4 []).AccFits :=
  ⟨by decide, by decide, by decide, running_two_fits 4 []⟩

theorem witness_SpiShiftMovesOneBit : 6#3 ≠ 7#3 ∧ (staged []).fault = none := by decide

theorem witness_SpiByteLoadsNextByteAndDrains : (staged []).fault = none := by decide

theorem witness_Rev8ReversesBits : 7 < 8 := by decide

theorem witness_ResetClearsEveryElement : (pins true false true true).rst = true := by decide

/-! ## Witnesses: encodings -/

theorem witness_DecodeOfEncodeIsIdentity :
    (Instr.sampleNoise .llToHh).wf ⟨true, true, true, false⟩ = true ∧
    (Instr.spiShift 6#3).wf Config.defaultIdleStop = true := by decide

theorem witness_EncodeOfDecodeIsIdentity :
    decode Config.defaultIdleStop 0x53#8 = .op (.tmoDiscard 0b11#2) := by decide

theorem witness_ReservedWordsAreExactlyThese :
    decode (start []).params.idleStop 0xFF#8 = .reserved .resetFields ∧
    samplerWord zeroPulse (start []) = some 0x0E#8 ∧ timerWord false (running 3#6 0#64 4 []) = some 0x53#8 ∧
    serialWord idlePins { start [] with sckPrev := true } = some 0x80#8 := by decide

/-! ## Witnesses: the tick -/

theorem witness_StepRunsDecodedInstructions :
    decode (start []).params.idleStop 0x0E#8 = .op (.sampleBit0 LinePair.HH) ∧
    (nextSample (start [pins true true true false])).rst = true ∧
    (nextSample (faulted [idlePins])).rst = false ∧ (takeSample (faulted [idlePins])).fault ≠ none ∧
    (nextSample (start [idlePins])).rst = false ∧ (takeSample (start [idlePins])).fault = none := by decide

/-- The inner hypotheses on part 1: it faults in one state and goes on in another. -/
theorem witness_StepRunsDecodedInstructions_sampler :
    (∃ f, runPart (samplerWord zeroPulse (running 63#6 0#64 0 [])) (running 63#6 0#64 0 []) = .fault f) ∧
    ∃ u, runPart (samplerWord zeroPulse (start [])) (start []) = .next u :=
  ⟨⟨.counterOverflow, rfl⟩, ⟨_, next_after (by decide)⟩⟩

theorem witness_TriggersFormTheirWords :
    linesOf zeroPulse ≠ (start []).linePrev ∧ linesOf idlePins = (start []).linePrev ∧
    (running 1#6 0#64 4 []).tmrRun = true ∧
    (running 1#6 0#64 4 []).tmrCnt + 1 = (running 1#6 0#64 4 []).params.deadline ∧
    (running 1#6 0#64 3 []).tmrRun = true ∧
    (running 1#6 0#64 3 []).tmrCnt + 1 ≠ (running 1#6 0#64 3 []).params.deadline ∧ (start []).tmrRun = false ∧
    ({ start [] with sckPrev := true } : State).sckPrev = true ∧ idlePins.sck = false ∧
    (start []).sckPrev = false := by decide

theorem witness_LatchesHoldTheLatestSample :
    ∃ t, step (start [zeroPulse]) = .next t ∧ (nextSample (start [zeroPulse])).rst = false ∧
      (start [zeroPulse]).fault = none ∧ t.fault = none :=
  ⟨_, next_after (by decide), by decide, by decide, by decide⟩

theorem witness_PulseBeatsDeadlineInTheSameTick :
    let s := running 2#6 0#64 4 []
    let low : State := { s with linePrev := LinePair.LL }
    zeroPulse.rst = false ∧ s.fault = none ∧ s.tmrRun = true ∧ s.tmrCnt + 1 = s.params.deadline ∧
    pulseSeen zeroPulse s = true ∧ pulseOverflows s = false ∧
    QuietMove.llToHh.prev = low.linePrev ∧ QuietMove.llToHh.cur = linesOf idlePins ∧
    low.params.idleStop.has .llToHh = true ∧ pulseSeen idlePins s = false := by decide

/-- The last clause's hypothesis on the idle-stop set, for a tick without a transition and for noise. -/
theorem witness_PulseBeatsDeadlineInTheSameTick_quiet :
    (∀ move : QuietMove, move.prev = (running 2#6 0#64 4 []).linePrev → move.cur = linesOf idlePins →
      (running 2#6 0#64 4 []).params.idleStop.has move = false) ∧
    ∀ move : QuietMove, move.prev = (running 2#6 0#64 4 []).linePrev → move.cur = linesOf bothLow →
      (running 2#6 0#64 4 []).params.idleStop.has move = false := by
  constructor <;> intro move <;> cases move <;> decide

theorem witness_FinalizationMeetsSerialEdge :
    let s : State := { running 4#6 0xE#64 4 [] with sckPrev := true, spiCnt := 7#3 }
    idlePins.rst = false ∧ s.fault = none ∧ s.sckPrev = true ∧ idlePins.sck = false ∧
    restarts idlePins s = false ∧ s.tmrRun = true ∧ s.tmrCnt + 1 = s.params.deadline ∧ s.cnt.toNat % 2 = 0 ∧
    isNext (runPart (samplerWord idlePins s) s) = true ∧ after (runPart (samplerWord idlePins s) s) = s ∧
    s.spiCnt = 7#3 ∧ 0#3 ≠ 7#3 := by decide

theorem witness_SupersedingPulseMeetsByteComplete :
    let s : State := { staged [] with sckPrev := true, spiCnt := 7#3 }
    onePulse.rst = false ∧ s.fault = none ∧ s.rdy = true ∧ pulseSeen onePulse s = true ∧ s.sckPrev = true ∧
    onePulse.sck = false ∧ s.spiCnt = 7#3 := by decide

theorem witness_FirstTickAfterResetTakesLowLinesAsTransition :
    zeroPulse.rst = false ∧ linesOf zeroPulse = LinePair.HL ∧ linesOf onePulse = LinePair.LH ∧
    linesOf bothLow = LinePair.LL ∧ linesOf (pins false true true true) = LinePair.HH ∧
    startPremise idlePins = true := by decide

theorem witness_PlacedWordRunsAtTheNextStep :
    decode (start []).params.idleStop 0x52#8 = .op .tmoStrip ∧
    ∃ t, exec .tmoStrip (takeSample (placeWord 0x52#8 (start []))) = .next t :=
  ⟨by decide, _, next_after (by decide)⟩

/-! ## Witnesses: invariants -/

theorem running_inv : (running 2#6 0x3#64 3 [idlePins]).Inv :=
  ⟨by decide, by decide, by decide, by decide, by decide⟩

theorem staged_inv : (staged [idlePins]).Inv := ⟨by decide, by decide, by decide, by decide, by decide⟩

theorem witness_EveryStepKeepsInvariants :
    (running 2#6 0x3#64 3 [idlePins]).Reach ∧
    ∃ t, step (running 2#6 0x3#64 3 [idlePins]) = .next t ∧ t.fault = none :=
  ⟨fun _ => running_inv, _, next_after (by decide), by decide⟩

theorem witness_EveryStepKeepsAccumulatorBelowCount :
    let s := running 2#6 0x3#64 3 [onePulse]
    s.fault = none ∧ (s.cnt ≠ 0#6 → s.AccFits) ∧ startsOnDrained (nextSample s) s ∧
    ∃ t, step s = .next t ∧ t.fault = none ∧ t.cnt ≠ 0#6 :=
  ⟨by decide, fun _ => running_two_fits 3 [onePulse], fun _ h => absurd h (by decide), _, next_after (by decide),
    by decide, by decide⟩

theorem witness_NoFaultWithFewerThan64Pulses :
    let s := running 62#6 0#64 3 [onePulse]
    s.fault = none ∧ fewerThan64 (nextSample s) s ∧ ∃ t, step s = .next t :=
  ⟨by decide, fun _ => by decide, _, next_after (by decide)⟩

theorem witness_HeldBitsStayWhileHostKeepsItsDuty :
    let s := running 2#6 0x3#64 3 [onePulse]
    s.Inv ∧ s.fault = none ∧ (s.cnt ≠ 0#6 → Fetch.waiting = .waiting) ∧ clocksOnlyTransfers .waiting (nextSample s) s ∧
    (∃ t, step s = .next t ∧ t.fault = none ∧ t.cnt ≠ 0#6) ∧ s.cnt ≠ 0#6 ∧ 1 < s.cnt.toNat :=
  ⟨⟨by decide, by decide, by decide, by decide, by decide⟩, by decide, fun _ => rfl, fun _ h => absurd h (by decide),
    ⟨_, next_after (by decide), by decide, by decide⟩, by decide, by decide⟩

/-- Scenario A's staged frame lies in its 24 payload bits. -/
theorem staged_fits (i : Nat) (h : 24 ≤ i) : (0x0035634A#64).getLsbD i = false :=
  Nat.testBit_lt_two_pow (lt_of_lt_of_le (by decide : 0x0035634A < 2 ^ 24) (Nat.pow_le_pow_right (by decide) h))

/-- The host's first falling edge on a staged frame is about to come. -/
def firstEdge : State := { staged [idlePins] with sckPrev := true }

/-- The last payload byte is being clocked, the accumulator drained and the phase IDLE: five edges are left. -/
def lastByte : State := { start [idlePins] with sckPrev := true, sr := 0x58#8, spiCnt := 3#3 }

theorem firstEdge_fetch : firstEdge.FetchInv .waiting where
  heldFits h := absurd rfl h
  heldUnread _ := rfl
  stagedFits _ _ := staged_fits
  waitingClean _ h := by cases h
  leftFits _ h := by cases h
  leftAligned _ h := by cases h

theorem lastByte_fetch : lastByte.FetchInv (.under 5) where
  heldFits h := absurd rfl h
  heldUnread h := absurd rfl h
  stagedFits h := by cases h
  waitingClean h := by cases h
  leftFits _ _ _ _ := BitVec.getLsbD_zero
  leftAligned _ h _ := by cases h; rfl

theorem fetched_fetch : (start [onePulse]).FetchInv (.under 0) where
  heldFits h := absurd rfl h
  heldUnread h := absurd rfl h
  stagedFits h := by cases h
  waitingClean h := by cases h
  leftFits _ _ _ _ := BitVec.getLsbD_zero
  leftAligned _ h hn := by cases h; exact absurd rfl hn

/-- The three situations of a transfer: its first edge (31 more follow for scenario A's length), an edge of its last byte, and
the next frame's first pulse after it. -/
theorem witness_EveryStepKeepsFetchInvariant :
    (firstEdge.fault = none ∧ firstEdge.Inv ∧ firstEdge.params.clearIndex = Config.defaultClearIndex ∧
      firstEdge.FetchInv .waiting ∧ clocksOnlyTransfers .waiting (nextSample firstEdge) firstEdge ∧
      finishesBeforeNextFrame .waiting (nextSample firstEdge) firstEdge ∧
      ∃ t, step firstEdge = .next t ∧ t.fault = none) ∧
    Fetch.waiting.after (nextSample firstEdge) firstEdge = .under 31 ∧
    (lastByte.FetchInv (.under 5) ∧ phase lastByte = .idle ∧
      clocksOnlyTransfers (.under 5) (nextSample lastByte) lastByte ∧
      finishesBeforeNextFrame (.under 5) (nextSample lastByte) lastByte) ∧
    ((start [onePulse]).FetchInv (.under 0) ∧
      finishesBeforeNextFrame (.under 0) (nextSample (start [onePulse])) (start [onePulse]) ∧
      (nextSample (start [onePulse])).rst = false) := by
  refine ⟨⟨by decide, ⟨by decide, by decide, by decide, by decide, by decide⟩, by decide, firstEdge_fetch, ?_, ?_, _,
    next_after (by decide), by decide⟩, by decide, ⟨lastByte_fetch, by decide, ?_, ?_⟩, fetched_fetch, ?_, by decide⟩
  · exact fun _ _ => .inr (by decide)
  · exact fun _ h => absurd h (by decide)
  · exact fun _ _ => .inl (by decide)
  · exact fun _ h => absurd h (by decide)
  · exact fun _ _ => ⟨by decide, .inr rfl⟩

theorem witness_StagedFrameStaysWhileReady :
    (staged [idlePins]).fault = none ∧ (staged [idlePins]).Inv ∧
    ∃ t, step (staged [idlePins]) = .next t ∧ t.fault = none ∧ (staged [idlePins]).rdy = true ∧ t.rdy = true :=
  ⟨by decide, staged_inv, _, next_after (by decide), by decide, by decide, by decide⟩

theorem witness_ShiftRegisterHoldsShiftedLengthWhileReady :
    (staged [idlePins]).fault = none ∧ (staged [idlePins]).Inv ∧ (staged [idlePins]).LengthInShift ∧
    ((staged [idlePins]).rdy = false → (staged [idlePins]).spiCnt = 0#3) ∧
    ∃ t, step (staged [idlePins]) = .next t ∧ t.fault = none :=
  ⟨by decide, staged_inv, fun _ => by decide, fun _ => by decide, _, next_after (by decide), by decide⟩

theorem witness_ParametersNeverChange : ∃ t, step (start [onePulse]) = .next t := ⟨_, next_after (by decide)⟩

/-! ## Witnesses: whole-machine rules -/

theorem witness_OnlyPulsesStartAndOnlyThreeThingsStopTheTimer :
    (∃ t, step (start [onePulse]) = .next t ∧ (start [onePulse]).fault = none ∧ t.fault = none ∧
      (start [onePulse]).tmrRun = false ∧ t.tmrRun = true) ∧
    ∃ t, step (running 3#6 0#64 4 [idlePins]) = .next t ∧ (running 3#6 0#64 4 [idlePins]).fault = none ∧
      t.fault = none ∧ (running 3#6 0#64 4 [idlePins]).tmrRun = true ∧ t.tmrRun = false :=
  ⟨⟨_, next_after (by decide), by decide, by decide, by decide, by decide⟩,
    ⟨_, next_after (by decide), by decide, by decide, by decide, by decide⟩⟩

theorem witness_ReadyRisesAndFallsOnlyAsListed :
    (∃ t, step (running 2#6 0#64 4 [idlePins]) = .next t ∧ (running 2#6 0#64 4 [idlePins]).fault = none ∧
      t.fault = none ∧ ready (running 2#6 0#64 4 [idlePins]) = false ∧ ready t = true) ∧
    ∃ t, step (staged [onePulse]) = .next t ∧ (staged [onePulse]).fault = none ∧ t.fault = none ∧
      ready (staged [onePulse]) = true ∧ ready t = false :=
  ⟨⟨_, next_after (by decide), by decide, by decide, by decide, by decide⟩,
    ⟨_, next_after (by decide), by decide, by decide, by decide, by decide⟩⟩

theorem witness_SpiCountFollowsFallingEdgesAlone :
    let s : State := { staged [idlePins] with sckPrev := true, spiCnt := 7#3 }
    s.fault = none ∧ (nextSample s).rst = false ∧ sckFalls (nextSample s) s = true ∧
    (∃ t, step s = .next t ∧ t.fault = none) ∧ sckFalls (nextSample (staged [idlePins])) (staged [idlePins]) = false ∧
    (nextSample (staged [pins true true true false])).rst = true :=
  ⟨by decide, by decide, by decide, ⟨_, next_after (by decide), by decide⟩, by decide, by decide⟩

theorem witness_PhaseTransitionsFollowTheTable :
    (running 2#6 0x3#64 3 [idlePins]).Inv ∧ (running 2#6 0x3#64 3 [idlePins]).fault = none ∧
    opEnabled (running 2#6 0x3#64 3 [idlePins]) .tmoStrip = true ∧
    ∃ t, exec .tmoStrip (running 2#6 0x3#64 3 [idlePins]) = .next t :=
  ⟨running_inv, by decide, by decide, _, next_after (by decide)⟩

theorem witness_SuspendedFrameWaitsForPulseOrReset :
    let s : State := { running 2#6 0x3#64 3 [idlePins] with tmrRun := false }
    s.Inv ∧ s.fault = none ∧ phase s = .suspended ∧ (nextSample s).rst = false ∧
    pulseSeen (nextSample s) s = false ∧ ∃ t, step s = .next t :=
  ⟨⟨by decide, by decide, by decide, by decide, by decide⟩, by decide, by decide, by decide, by decide, _,
    next_after (by decide)⟩

/-- Two machines with the same frame under way, one of them clocked by its host. -/
theorem witness_HostClockCannotDisturbFraming :
    let a := running 2#6 0x3#64 3 [idlePins]
    let b : State := { running 2#6 0x0#64 3 [idlePins] with sckPrev := true, spiCnt := 7#3, sr := 0xFF#8 }
    a.Inv ∧ b.Inv ∧ a.fault = none ∧ b.fault = none ∧ a.FramingAgrees b ∧
    (nextSample a).rst = (nextSample b).rst ∧ linesOf (nextSample a) = linesOf (nextSample b) ∧
    ∃ ta tb, step a = .next ta ∧ step b = .next tb ∧ ta.fault = none :=
  ⟨running_inv, ⟨by decide, by decide, by decide, by decide, by decide⟩, by decide, by decide,
    ⟨by decide, by decide, by decide, by decide, by decide, by decide⟩, by decide, by decide, _, _,
    next_after (by decide), next_after (by decide), by decide⟩

theorem witness_UnobservableStateNeverShows :
    let a := staged [idlePins]
    let b : State := { staged [idlePins] with len := 0#8, tmrCnt := 3, txPend := true }
    a.Alike b ∧ ∃ ta tb, step a = .next ta ∧ step b = .next tb ∧ ta.fault = none :=
  ⟨⟨by decide, by decide, by decide, by decide, by decide, by decide, by decide, by decide, by decide, by decide,
      by decide, by decide, by decide⟩, _, _, next_after (by decide), next_after (by decide), by decide⟩

/-- The same machine with a wider timer and another clock frequency. -/
theorem witness_OpenWidthAndFrequencyNeverShow :
    (running 2#6 0x3#64 3 [idlePins]).Inv ∧ (running 2#6 0x3#64 3 [idlePins]).fault = none ∧
    ∃ ta tb, step (running 2#6 0x3#64 3 [idlePins]) = .next ta ∧
      step { running 2#6 0x3#64 3 [idlePins] with params := { fiveTicks with spareTimerBits := 9, clockHz := 1 } } =
        .next tb ∧ ta.fault = none :=
  ⟨running_inv, by decide, _, _, next_after (by decide), next_after (by decide), by decide⟩

theorem witness_TimeoutComesExactlyAtDeadline :
    let s := running 2#6 0x3#64 3 [idlePins, idlePins]
    s.fault = none ∧ s.tmrRun = true ∧ s.linePrev ≠ LinePair.LL ∧ s.inputs = [idlePins, idlePins] ++ [] ∧
    (∀ p ∈ [idlePins, idlePins], silent p = true) ∧ 0 < [idlePins, idlePins].length ∧
    s.tmrCnt + [idlePins, idlePins].length = s.params.deadline ∧ s.rdy = false ∧ s.sckPrev = false ∧
    (∀ p ∈ [idlePins, idlePins], p.sck = false) ∧ 1 < [idlePins, idlePins].length := by decide

/-! ## Witnesses: the event level and the byte level -/

theorem witness_EventLevelSimulatesTick :
    let s := running 2#6 0x3#64 4 []
    let u : State := { s with tmrCnt := 0, sckPrev := true }
    forgetTime u = forgetTime s ∧ ∃ t, tick idlePins s = .next t ∧ t.fault = none :=
  ⟨by decide, _, next_after (by decide), by decide⟩

theorem witness_EightEdgesAreOneHostByte :
    (staged []).fault = none ∧ (staged []).spiCnt = 0#3 ∧ 7 < 8 := by decide

theorem witness_PayloadBytesFollowInOrder : (staged []).fault = none ∧ (staged []).spiCnt = 0#3 ∧ 8 ≤ 8 := by decide

/-- Scenario A's staged frame: 24 payload bits. -/
theorem witness_FullTransferDrainsAccumulator :
    (staged []).fault = none ∧ (staged []).spiCnt = 0#3 ∧
    ∀ i, payloadBits (staged []).len.toNat ≤ i → (staged []).acc.getLsbD i = false := by
  refine ⟨by decide, by decide, fun i hi => ?_⟩
  have h24 : 24 ≤ i := hi
  exact Nat.testBit_lt_two_pow
    (lt_of_lt_of_le (by decide : 0x0035634A < 2 ^ 24) (Nat.pow_le_pow_right (by decide) h24))

theorem start_freshIdle : (start []).FreshIdle := ⟨by decide, by decide, by decide, by decide, by decide⟩

theorem witness_FrameBitsStandAtTheirPositions :
    (start []).FreshIdle ∧ (List.replicate 63 true).length ≤ 63 ∧ List.replicate 63 true ≠ [] :=
  ⟨start_freshIdle, by decide, by decide⟩

theorem witness_EvenFrameIsStagedWithItsPayload :
    (start []).FreshIdle ∧ (start []).params.clearIndex = Config.defaultClearIndex ∧
    (List.replicate 62 true).length % 2 = 0 ∧ 2 ≤ (List.replicate 62 true).length ∧
    (List.replicate 62 true).length ≤ 62 :=
  ⟨start_freshIdle, by decide, by decide, by decide, by decide⟩

theorem witness_OddFrameLeavesNoTrace :
    (start []).FreshIdle ∧ (List.replicate 63 true).length % 2 = 1 ∧ (List.replicate 63 true).length ≤ 63 :=
  ⟨start_freshIdle, by decide, by decide⟩

theorem witness_GlitchSuspendsTheFrame :
    (running 1#6 0#64 0 []).fault = none ∧ (running 1#6 0#64 0 []).linePrev = LinePair.HH ∧
    (running 1#6 0#64 0 []).params.idleStop = Config.defaultIdleStop ∧ (running 1#6 0#64 0 []).rdy = false ∧
    (running 1#6 0#64 0 []).cnt ≠ 0#6 := by decide

end Sys2Proof.Tests
end

/-! Proofs of the statements of 00_scope.md: the timer count and its width (R7, R28), and that the two open parameters
`TMR_W` and `F_CLK` never show (R7, D11, D22). -/

namespace Sys2Proof.Machine

/-! ## What the parts of a tick do to the timer count and the parameters -/

section Parts

variable (p : Pins) (r : Bool) (s : State)

@[simp] theorem afterQuiet_tmrCnt : (afterQuiet p s).tmrCnt = s.tmrCnt := by
  rcases afterQuiet_cases p s with ⟨h, -⟩ | ⟨h, -⟩ <;> simp [h]

@[simp] theorem afterQuiet_params : (afterQuiet p s).params = s.params := by
  rcases afterQuiet_cases p s with ⟨h, -⟩ | ⟨h, -⟩ <;> simp [h]

@[simp] theorem sampled_params : (sampled p s).params = s.params := by
  rcases sampled_cases p s with ⟨-, -, h⟩ | ⟨-, -, h⟩ | ⟨-, -, h⟩ <;> simp [h]

/-- Part 1 restarts the count or holds it (10_state.md R28). -/
theorem sampled_tmrCnt_le : (sampled p s).tmrCnt ≤ s.tmrCnt := by
  rcases sampled_cases p s with ⟨-, -, h⟩ | ⟨-, -, h⟩ | ⟨-, -, h⟩ <;> simp [h]

@[simp] theorem afterTimer_params : (afterTimer r s).params = s.params := by
  rcases afterTimer_cases r s with ⟨-, h⟩ | ⟨-, -, -, h⟩ | ⟨-, -, -, ⟨-, h⟩ | ⟨-, h⟩ | ⟨-, h⟩⟩ <;> simp [h]

/-- Part 2 counts, in the width of the register, or holds the count (41_frame_timer.md R122, R125 to R127). -/
theorem afterTimer_tmrCnt :
    (afterTimer r s).tmrCnt = s.tmrCnt ∨ (afterTimer r s).tmrCnt = timerBits s.params (s.tmrCnt + 1) := by
  rcases afterTimer_cases r s with ⟨-, h⟩ | ⟨-, -, -, h⟩ | ⟨-, -, -, ⟨-, h⟩ | ⟨-, h⟩ | ⟨-, h⟩⟩ <;> simp [h]

@[simp] theorem afterSerial_params : (afterSerial p s).params = s.params := by
  rcases afterSerial_cases p s with ⟨-, h⟩ | ⟨-, -, h⟩ | ⟨-, -, h⟩ <;> simp [h]

@[simp] theorem afterSerial_tmrCnt : (afterSerial p s).tmrCnt = s.tmrCnt := by
  rcases afterSerial_cases p s with ⟨-, h⟩ | ⟨-, -, h⟩ | ⟨-, -, h⟩ <;> simp [h]

end Parts

/-! ## The width of the timer count -/

/-- Every deadline and every width that R7 allows is some implementation's. -/
theorem exists_params_of_width (p : Config.Params) {d w : Nat} (hd : 1 ≤ d) (hw : d < 2 ^ w) :
    ∃ q : Config.Params, q.deadline = d ∧ q.tmrW = w ∧ q.clockHz = p.clockHz ∧ q.idleStop = p.idleStop ∧
      q.clearIndex = p.clearIndex := by
  have hdeadline : d - 1 + 1 = d := Nat.sub_add_cancel hd
  have hleast : d.log2 + 1 ≤ w := (Nat.log2_lt (Nat.ne_of_gt hd)).2 hw
  refine ⟨{ p with deadlineLess1 := d - 1, spareTimerBits := w - (d.log2 + 1) }, hdeadline, ?_, rfl, rfl, rfl⟩
  simp only [Config.Params.tmrW, Config.Params.deadline, hdeadline]
  omega

theorem sampled_timerFits {s : State} (p : Pins) (h : s.TimerFits) : (sampled p s).TimerFits := by
  unfold State.TimerFits
  rw [sampled_params]
  exact lt_of_le_of_lt (sampled_tmrCnt_le p s) h

theorem afterTimer_timerFits {s : State} (r : Bool) (h : s.TimerFits) : (afterTimer r s).TimerFits := by
  unfold State.TimerFits
  rw [afterTimer_params]
  rcases afterTimer_tmrCnt r s with held | bumped
  · exact held ▸ h
  · exact bumped ▸ timerBits_lt _ _

theorem ticked_timerFits {s : State} (p : Pins) (h : s.TimerFits) : (ticked p s).TimerFits := by
  simpa [State.TimerFits, ticked] using afterTimer_timerFits (restarts p s) (sampled_timerFits p h)

/-- Every tick keeps the count in its width, faulted states and the tick that raises the fault included (R28). -/
theorem tick_timerFits {p : Pins} {s t : State} (hs : s.TimerFits) (h : tick p s = .next t) : t.TimerFits := by
  cases hr : p.rst with
  | true =>
    rw [tick_reset hr] at h
    cases h
    exact Nat.two_pow_pos _
  | false =>
    by_cases hf : s.fault = none
    · rw [tick_eq hr hf] at h
      split at h
      · cases h
        exact timerBits_lt _ _
      · cases h
        exact ticked_timerFits p hs
    · rw [tick_faulted hr hf] at h
      cases h
      exact hs

/-- Settles O9: a step is a tick on its sample, and each part of a tick keeps the count in its width. -/
theorem timerCountStaysInItsWidth : Obligations.TimerCountStaysInItsWidth :=
  ⟨deadline_lt_two_pow, fun p _ _ hd hw => exists_params_of_width p hd hw, fun _ hf => exec_tmrTick hf,
    fun _ _ hs h => tick_timerFits (s := takeSample _) hs h⟩

/-! ## The two open parameters never show -/

/-- The same machine with another width of the timer count register and another clock frequency. -/
def withWidthAndClock (spare hz : Nat) (s : State) : State :=
  { s with params := { s.params with spareTimerBits := spare, clockHz := hz } }

section WidthAndClock

variable (spare hz : Nat) (p : Pins) (s : State)

@[simp] theorem withWidthAndClock_cnt : (withWidthAndClock spare hz s).cnt = s.cnt := rfl
@[simp] theorem withWidthAndClock_spiCnt : (withWidthAndClock spare hz s).spiCnt = s.spiCnt := rfl
@[simp] theorem withWidthAndClock_tmrRun : (withWidthAndClock spare hz s).tmrRun = s.tmrRun := rfl
@[simp] theorem withWidthAndClock_tmrCnt : (withWidthAndClock spare hz s).tmrCnt = s.tmrCnt := rfl
@[simp] theorem withWidthAndClock_linePrev : (withWidthAndClock spare hz s).linePrev = s.linePrev := rfl
@[simp] theorem withWidthAndClock_idleStop :
    (withWidthAndClock spare hz s).params.idleStop = s.params.idleStop := rfl
@[simp] theorem restarts_withWidthAndClock : restarts p (withWidthAndClock spare hz s) = restarts p s := rfl
@[simp] theorem sckFalls_withWidthAndClock : sckFalls p (withWidthAndClock spare hz s) = sckFalls p s := rfl
@[simp] theorem atDeadline_withWidthAndClock : atDeadline (withWidthAndClock spare hz s) = atDeadline s := rfl

@[simp] theorem override_withWidthAndClock :
    override (withWidthAndClock spare hz s) = withWidthAndClock spare hz (override s) := by
  unfold override
  rw [apply_ite (withWidthAndClock spare hz)]
  rfl

@[simp] theorem pulseOverflows_withWidthAndClock :
    pulseOverflows (withWidthAndClock spare hz s) = pulseOverflows s := by
  simp [pulseOverflows]

theorem counted_withWidthAndClock (b : Bool) :
    counted b (withWidthAndClock spare hz s) = withWidthAndClock spare hz (counted b s) := by
  change startTimer (bumpCnt (appendBit b (override (withWidthAndClock spare hz (stopTimer s))))) = _
  rw [override_withWidthAndClock]
  cases b <;> rfl

/-- Part 1 reads neither parameter. -/
theorem sampled_withWidthAndClock :
    sampled p (withWidthAndClock spare hz s) = withWidthAndClock spare hz (sampled p s) := by
  have hquiet : afterQuiet p (withWidthAndClock spare hz s) = withWidthAndClock spare hz (afterQuiet p s) := by
    simp only [afterQuiet, withWidthAndClock_idleStop, withWidthAndClock_linePrev]
    cases idleStops s.params.idleStop s.linePrev (linesOf p) <;> rfl
  have hpulse : afterPulse p (withWidthAndClock spare hz s) = withWidthAndClock spare hz (afterPulse p s) :=
    counted_withWidthAndClock spare hz (latchLines (linesOf p) s) _
  simp only [sampled, hquiet, hpulse, withWidthAndClock_linePrev, Bool.apply_cond (withWidthAndClock spare hz)]

theorem afterTimeout_withWidthAndClock :
    afterTimeout (withWidthAndClock spare hz s) = withWidthAndClock spare hz (afterTimeout s) := by
  simp only [afterTimeout, withWidthAndClock_cnt, Bool.apply_cond (withWidthAndClock spare hz)]
  rfl

/-- In its range (I-5) the count is incremented alike in every width that `DEADLINE` allows (R122). -/
theorem bumpTimer_withWidthAndClock (h : s.tmrCnt < s.params.deadline) :
    bumpTimer (withWidthAndClock spare hz s) = withWidthAndClock spare hz (bumpTimer s) := by
  have hwide : timerBits (withWidthAndClock spare hz s).params (s.tmrCnt + 1) = s.tmrCnt + 1 :=
    timerBits_of_le_deadline h
  have hown : timerBits s.params (s.tmrCnt + 1) = s.tmrCnt + 1 := timerBits_of_le_deadline h
  simp only [bumpTimer, withWidthAndClock_tmrCnt, hwide, hown]
  rfl

/-- Part 2 reads the width only where it increments the count. -/
theorem afterTimer_withWidthAndClock (r : Bool) (h : s.tmrCnt < s.params.deadline) :
    afterTimer r (withWidthAndClock spare hz s) = withWidthAndClock spare hz (afterTimer r s) := by
  simp only [afterTimer, withWidthAndClock_tmrRun, atDeadline_withWidthAndClock, afterTimeout_withWidthAndClock,
    bumpTimer_withWidthAndClock spare hz s h, Bool.apply_cond (withWidthAndClock spare hz)]

/-- Part 3 reads neither parameter. -/
theorem afterSerial_withWidthAndClock :
    afterSerial p (withWidthAndClock spare hz s) = withWidthAndClock spare hz (afterSerial p s) := by
  simp only [afterSerial, afterSckFall, sckFalls_withWidthAndClock, withWidthAndClock_spiCnt,
    Bool.apply_cond (withWidthAndClock spare hz)]
  rfl

theorem ticked_withWidthAndClock (h : s.tmrCnt < s.params.deadline) :
    ticked p (withWidthAndClock spare hz s) = withWidthAndClock spare hz (ticked p s) := by
  have hsampled : (sampled p s).tmrCnt < (sampled p s).params.deadline := by
    rw [sampled_params]
    exact lt_of_le_of_lt (sampled_tmrCnt_le p s) h
  simp only [ticked, restarts_withWidthAndClock, sampled_withWidthAndClock,
    afterTimer_withWidthAndClock spare hz _ _ hsampled, afterSerial_withWidthAndClock]
  rfl

end WidthAndClock

/-- A tick that leaves no fault commutes with a change of the two open parameters. -/
theorem tick_withWidthAndClock {p : Pins} {s t : State} (spare hz : Nat) (hc : s.tmrCnt < s.params.deadline)
    (hf : s.fault = none) (h : tick p s = .next t) (ht : t.fault = none) :
    tick p (withWidthAndClock spare hz s) = .next (withWidthAndClock spare hz t) := by
  rcases tick_ok h hf ht with ⟨hr, rfl⟩ | ⟨hr, hroom, rfl⟩
  · exact tick_reset hr _
  · rw [tick_eq (s := withWidthAndClock spare hz s) hr hf, restarts_withWidthAndClock, pulseOverflows_withWidthAndClock, if_neg hroom,
      ticked_withWidthAndClock spare hz p s hc]

/-- Settles O50: the tick commutes with the change of the two parameters, since the invariant (I-5) keeps the count where no
width cuts it. -/
theorem openWidthAndFrequencyNeverShow : Obligations.OpenWidthAndFrequencyNeverShow := by
  intro a b ta tb spare hz hinv hf hb hta htb hok
  have hcommutes : step (withWidthAndClock spare hz a) = .next (withWidthAndClock spare hz ta) :=
    tick_withWidthAndClock (s := takeSample a) spare hz hinv.countBelowDeadline hf hta hok
  subst hb
  exact Host.Outcome.next.inj (htb.symm.trans hcommutes)

end Sys2Proof.Machine

/-! Proofs of the statements of 10_state.md: the state after reset (R38), the invariants I-1 to I-5 (R37, R28), what the
accumulator and the shift register hold (R36), and when `Rdy` changes (R24). -/

namespace Sys2Proof.Machine

/-! ## The state after reset (R38) -/

/-- Settles O18: each element of the reset state is the value of R38's table as it stands. -/
theorem resetStateHasSpecifiedValues : Obligations.ResetStateHasSpecifiedValues :=
  ⟨rfl, rfl, rfl, rfl, rfl, rfl, rfl, rfl, rfl, rfl, rfl, rfl, rfl, rfl⟩

/-- The invariants hold after a reset, whatever the parameters are: every `DEADLINE` is at least 1. -/
theorem resetWith_inv (p : Config.Params) (inputs : List Pins) (tickNo : Nat) :
    (State.resetWith p inputs tickNo).Inv where
  timerHoldsBits := nofun
  readyIsStill := nofun
  nothingPending := rfl
  lengthEven := ⟨rfl, Nat.zero_le _⟩
  countBelowDeadline := Nat.succ_pos _

/-- A host that has not started a transfer finds nothing held and nothing staged after a reset. -/
theorem resetWith_fetchInv (p : Config.Params) (inputs : List Pins) (tickNo : Nat) :
    (State.resetWith p inputs tickNo).FetchInv .waiting where
  heldFits h := absurd rfl h
  heldUnread _ := rfl
  stagedFits := nofun
  waitingClean _ _ _ := rfl
  leftFits := nofun
  leftAligned := nofun

/-- Settles O34: the reset state is the assignment of R38 at the reset machine's parameters, and a count of 0
fits every width. -/
theorem invariantsHoldAtReset : Obligations.InvariantsHoldAtReset :=
  ⟨resetWith_inv _ _ _, Nat.two_pow_pos _, resetWith_fetchInv _ _ _⟩

/-! ## What each part of a tick leaves -/

section Parts

variable {p : Pins} {r : Bool} {s : State}

theorem sampled_of_pulse (h : restarts p s = true) : sampled p s = afterPulse p s := by
  rcases sampled_cases p s with ⟨-, hr, -⟩ | ⟨-, hr, -⟩ | ⟨-, -, hs⟩
  · simp [hr] at h
  · simp [hr] at h
  · exact hs

/-- Without a valid pulse part 1 stores the lines and, at an idle stop, stops the timer (40_sampler.md R107 to R109). -/
theorem sampled_of_no_pulse (h : restarts p s = false) :
    sampled p s = latchLines (linesOf p) s ∨ sampled p s = latchLines (linesOf p) (stopTimer s) := by
  rcases sampled_cases p s with ⟨hl, -, hs⟩ | ⟨-, -, hs⟩ | ⟨-, hr, -⟩
  · rw [hs, hl]
    exact .inl rfl
  · rw [hs]
    rcases afterQuiet_cases p s with ⟨hq, -⟩ | ⟨hq, -⟩
    · exact .inr hq
    · exact .inl hq
  · simp [hr] at h

theorem sampled_cnt_of_no_pulse (h : restarts p s = false) : (sampled p s).cnt = s.cnt := by
  rcases sampled_of_no_pulse h with hs | hs <;> simp [hs]

theorem sampled_acc_of_no_pulse (h : restarts p s = false) : (sampled p s).acc = s.acc := by
  rcases sampled_of_no_pulse h with hs | hs <;> simp [hs]

theorem sampled_tmrCnt_of_no_pulse (h : restarts p s = false) : (sampled p s).tmrCnt = s.tmrCnt := by
  rcases sampled_of_no_pulse h with hs | hs <;> simp [hs]

/-- Only a valid pulse starts the timer (41_frame_timer.md R120). -/
theorem tmrRun_of_sampled (h : restarts p s = false) (ht : (sampled p s).tmrRun = true) : s.tmrRun = true := by
  rcases sampled_of_no_pulse h with hs | hs
  · simpa [hs] using ht
  · simp [hs] at ht

/-- A valid pulse lowers `Rdy`, and part 1 does nothing else to it (R24). -/
@[simp] theorem sampled_rdy : (sampled p s).rdy = (s.rdy && !restarts p s) := by
  rcases sampled_cases p s with ⟨-, hr, h⟩ | ⟨-, hr, h⟩ | ⟨-, hr, h⟩
  · simp [h, hr]
  · rcases afterQuiet_cases p s with ⟨hq, -⟩ | ⟨hq, -⟩ <;> simp [h, hr, hq]
  · simp [h, hr]

/-- Part 1 writes none of the elements that the serializer alone and the finalization write. -/
@[simp] theorem sampled_keeps_staged :
    (sampled p s).len = s.len ∧ (sampled p s).sr = s.sr ∧ (sampled p s).spiCnt = s.spiCnt ∧
      (sampled p s).sckPrev = s.sckPrev := by
  cases hr : restarts p s with
  | true => simp [sampled_of_pulse hr]
  | false => rcases sampled_of_no_pulse hr with hs | hs <;> simp [hs]

/-- Part 2 has nothing to do when the timer is stopped or was restarted in this tick (41_frame_timer.md R122). -/
theorem afterTimer_of_still (h : s.tmrRun = false ∨ r = true) : afterTimer r s = s := by
  rcases h with h | h <;> simp [afterTimer, h]

@[simp] theorem afterTimer_spiCnt : (afterTimer r s).spiCnt = s.spiCnt := by
  rcases afterTimer_cases r s with ⟨-, h⟩ | ⟨-, -, -, h⟩ | ⟨-, -, -, ⟨-, h⟩ | ⟨-, h⟩ | ⟨-, h⟩⟩ <;> simp [h]

@[simp] theorem afterTimer_sckPrev : (afterTimer r s).sckPrev = s.sckPrev := by
  rcases afterTimer_cases r s with ⟨-, h⟩ | ⟨-, -, -, h⟩ | ⟨-, -, -, ⟨-, h⟩ | ⟨-, h⟩ | ⟨-, h⟩⟩ <;> simp [h]

/-- The timer never lowers `Rdy` (R24). -/
theorem afterTimer_rdy_of_rdy (h : s.rdy = true) : (afterTimer r s).rdy = true := by
  rcases afterTimer_cases r s with ⟨-, ht⟩ | ⟨-, -, -, ht⟩ | ⟨-, -, -, ⟨-, ht⟩ | ⟨-, ht⟩ | ⟨-, ht⟩⟩ <;> simp [ht, h]

/-- The timer raises `Rdy` only at the timeout of an even count (R24, 41_frame_timer.md R126, R127). -/
theorem evenTimeout_of_rdy_rises (hs : s.rdy = false) (ht : (afterTimer r s).rdy = true) :
    s.tmrRun = true ∧ r = false ∧ s.tmrCnt + 1 = s.params.deadline ∧ s.cnt.toNat % 2 = 0 := by
  rcases afterTimer_cases r s with ⟨-, h⟩ | ⟨-, -, -, h⟩ | ⟨hrun, hr, hd, ⟨-, h⟩ | ⟨h4, -⟩ | ⟨h4, -⟩⟩
  · simp [h, hs] at ht
  · simp [h, hs] at ht
  · simp [h, hs] at ht
  · exact ⟨hrun, hr, hd, by omega⟩
  · exact ⟨hrun, hr, hd, by omega⟩

@[simp] theorem afterSerial_cnt : (afterSerial p s).cnt = s.cnt := by
  rcases afterSerial_cases p s with ⟨-, h⟩ | ⟨-, -, h⟩ | ⟨-, -, h⟩ <;> simp [h]

@[simp] theorem afterSerial_len : (afterSerial p s).len = s.len := by
  rcases afterSerial_cases p s with ⟨-, h⟩ | ⟨-, -, h⟩ | ⟨-, -, h⟩ <;> simp [h]

/-- The end of a byte lowers `Rdy`, and part 3 does nothing else to it (R24, 42_serializer.md R145). -/
@[simp] theorem afterSerial_rdy :
    (afterSerial p s).rdy = (s.rdy && !(sckFalls p s && s.spiCnt == 7#3)) := by
  rcases afterSerial_cases p s with ⟨hf, h⟩ | ⟨hf, h7, h⟩ | ⟨hf, h7, h⟩
  · simp [h, hf]
  · simp [h, hf, h7]
  · simp [h, h7]

/-- Part 3 keeps the accumulator, or takes its low byte and lowers `Rdy` (42_serializer.md R145). -/
theorem afterSerial_acc_cases (p : Pins) (s : State) :
    (afterSerial p s).acc = s.acc ∨ ((afterSerial p s).acc = s.acc >>> 8 ∧ (afterSerial p s).rdy = false) := by
  rcases afterSerial_cases p s with ⟨-, h⟩ | ⟨-, -, h⟩ | ⟨-, -, h⟩ <;> simp [h]

/-- The parts before the serializer leave it its clock edge. -/
@[simp] theorem sckFalls_afterTimer_sampled : sckFalls p (afterTimer r (sampled p s)) = sckFalls p s := by
  simp [sckFalls]

end Parts

/-! ## When `Rdy` changes (R24) -/

section Ready

variable {p : Pins} {s : State}

theorem ticked_rdy :
    (ticked p s).rdy =
      ((afterTimer (restarts p s) (sampled p s)).rdy && !(sckFalls p s && s.spiCnt == 7#3)) := by
  simp [ticked]

/-- After a tick `Rdy` is 1 only if the timer left it 1 and no valid pulse was sampled. -/
theorem ready_of_ticked_ready (h : (ticked p s).rdy = true) :
    restarts p s = false ∧ (afterTimer false (sampled p s)).rdy = true := by
  rw [ticked_rdy, Bool.and_eq_true] at h
  obtain ⟨htimer, -⟩ := h
  cases hr : restarts p s with
  | true =>
    rw [hr, afterTimer_of_still (.inr rfl), sampled_rdy, hr] at htimer
    simp at htimer
  | false =>
    rw [hr] at htimer
    exact ⟨rfl, htimer⟩

theorem evenTimeout_of_ready_rises (hs : s.rdy = false) (ht : (ticked p s).rdy = true) :
    s.tmrRun = true ∧ s.tmrCnt + 1 = s.params.deadline ∧ restarts p s = false ∧ s.cnt.toNat % 2 = 0 := by
  obtain ⟨hr, htimer⟩ := ready_of_ticked_ready ht
  obtain ⟨hrun, -, hd, heven⟩ := evenTimeout_of_rdy_rises (by simp [hs]) htimer
  rw [sampled_tmrCnt_of_no_pulse hr, sampled_params] at hd
  rw [sampled_cnt_of_no_pulse hr] at heven
  exact ⟨tmrRun_of_sampled hr hrun, hd, hr, heven⟩

theorem pulse_or_byteEnd_of_ready_falls (hs : s.rdy = true) (ht : (ticked p s).rdy = false) :
    restarts p s = true ∨ (sckFalls p s = true ∧ s.spiCnt = 7#3) := by
  cases hr : restarts p s with
  | true => exact .inl rfl
  | false =>
    have htimer : (afterTimer false (sampled p s)).rdy = true := afterTimer_rdy_of_rdy (by simp [hs, hr])
    rw [ticked_rdy, hr, htimer] at ht
    exact .inr (by simpa using ht)

end Ready

/-- Settles O44: part 1 and part 3 only lower `Rdy`, part 2 only raises it. -/
theorem readyRisesAndFallsOnlyAsListed : Obligations.ReadyRisesAndFallsOnlyAsListed := by
  intro s t hf h ht
  rcases tick_ok (s := takeSample s) h hf ht with ⟨hrst, rfl⟩ | ⟨-, -, rfl⟩
  · exact ⟨fun _ hup => Bool.noConfusion hup, fun _ _ => .inl hrst⟩
  · exact ⟨fun hs hup => evenTimeout_of_ready_rises (s := takeSample s) hs hup,
      fun hs hdown => .inr (pulse_or_byteEnd_of_ready_falls (s := takeSample s) hs hdown)⟩

/-! ## The invariants I-1 to I-5 (R37, R28) -/

section Invariants

variable {s : State}

theorem State.Inv.latchLines (cur : LinePair) (h : s.Inv) : (latchLines cur s).Inv := { h with }

theorem State.Inv.latchSck (sck : Bool) (h : s.Inv) : (latchSck sck s).Inv := { h with }

theorem State.Inv.takeSample (h : s.Inv) : (takeSample s).Inv := { h with }

/-- An idle stop holds the count and the bits. -/
theorem State.Inv.stopTimer (h : s.Inv) : (stopTimer s).Inv :=
  { h with
    timerHoldsBits := nofun
    readyIsStill := fun hr => ⟨(h.readyIsStill hr).1, rfl⟩ }

/-- A valid pulse that the counter has room for leaves a running timer over at least one bit (40_sampler.md R104). -/
theorem State.Inv.afterPulse (p : Pins) (h : s.Inv) (hroom : pulseOverflows s = false) : (afterPulse p s).Inv where
  timerHoldsBits _ := by
    rw [afterPulse_cnt]
    exact bump_ne_zero _ (count_has_room hroom)
  readyIsStill hr := by simp at hr
  nothingPending := by simpa using h.nothingPending
  lengthEven := by simpa using h.lengthEven
  countBelowDeadline := by simp [Config.Params.deadline]

theorem State.Inv.sampled (p : Pins) (h : s.Inv) (hroom : ¬ (restarts p s = true ∧ pulseOverflows s = true)) :
    (sampled p s).Inv := by
  cases hr : restarts p s with
  | true =>
    rw [sampled_of_pulse hr]
    exact h.afterPulse p (by simpa [hr] using hroom)
  | false =>
    rcases sampled_of_no_pulse hr with hs | hs
    · exact hs ▸ h.latchLines _
    · exact hs ▸ h.stopTimer.latchLines _

/-- With a staged frame and no pulse the timer part of the tick finds the timer stopped (I-2). -/
theorem State.Inv.sampled_tmrRun_of_ready {p : Pins} (h : s.Inv) (hr : restarts p s = false) (hs : s.rdy = true) :
    (Machine.sampled p s).tmrRun = false := by
  obtain ⟨-, hstopped⟩ := (h.sampled p (by simp [hr])).readyIsStill (by simp [hs, hr])
  exact hstopped

/-- Below the deadline the timer counts on below it (41_frame_timer.md R122). -/
theorem State.Inv.bumpTimer (h : s.Inv) (hd : s.tmrCnt + 1 ≠ s.params.deadline) : (bumpTimer s).Inv :=
  { h with
    countBelowDeadline := by
      have hlt : s.tmrCnt < s.params.deadline := h.countBelowDeadline
      rw [bumpTimer_tmrCnt, bumpTimer_params, timerBits_of_le_deadline hlt]
      omega }

/-- Dropping the frame with its timer leaves nothing held (41_frame_timer.md R125). -/
theorem State.Inv.discard (h : s.Inv) : (clearAcc (clearCnt (Machine.stopTimer s))).Inv :=
  { h with
    timerHoldsBits := nofun
    readyIsStill := fun _ => ⟨rfl, rfl⟩ }

/-- Staging an even count with the timer stopped, whatever becomes of the accumulator (41_frame_timer.md R130). -/
theorem State.Inv.finalize (h : s.Inv) (hrun : s.tmrRun = false) (heven : s.cnt.toNat % 2 = 0) : (finalize s).Inv :=
  { h with
    timerHoldsBits := fun hr => by simp [hrun] at hr
    readyIsStill := fun _ => ⟨rfl, hrun⟩
    lengthEven := lengthByte_even _ heven }

theorem State.Inv.stripAcc (h : s.Inv) : (stripAcc s).Inv := { h with }

theorem State.Inv.afterTimer (r : Bool) (h : s.Inv) : (afterTimer r s).Inv := by
  rcases afterTimer_cases r s with ⟨-, ht⟩ | ⟨-, -, hd, ht⟩ | ⟨-, -, -, ⟨-, ht⟩ | ⟨h4, ht⟩ | ⟨h4, ht⟩⟩ <;> rw [ht]
  · exact h
  · exact h.bumpTimer hd
  · exact h.discard
  · exact h.stopTimer.finalize rfl (by rw [stopTimer_cnt]; omega)
  · exact h.stopTimer.stripAcc.finalize rfl (by rw [stripAcc_cnt, stopTimer_cnt]; omega)

/-- The serializer lowers `Rdy` and `TxPend` at the end of a byte and touches nothing else of the invariants
(42_serializer.md R145, R152). -/
theorem State.Inv.afterSerial (p : Pins) (h : s.Inv) : (afterSerial p s).Inv := by
  rcases afterSerial_cases p s with ⟨-, hs⟩ | ⟨-, -, hs⟩ | ⟨-, -, hs⟩ <;> rw [hs]
  · exact h
  · exact { h with readyIsStill := nofun, nothingPending := rfl }
  · exact { h with }

theorem State.Inv.ticked (p : Pins) (h : s.Inv) (hroom : ¬ (restarts p s = true ∧ pulseOverflows s = true)) :
    (ticked p s).Inv :=
  (((h.sampled p hroom).afterTimer _).afterSerial p).latchSck _

end Invariants

/-- Settles O35: a step that ends without a fault is a reset, after which the invariants hold, or comes from a state without a
fault, and each part of the tick keeps them. -/
theorem everyStepKeepsInvariants : Obligations.EveryStepKeepsInvariants := by
  intro s t hs h ht
  by_cases hf : s.fault = none
  · rcases tick_ok (s := takeSample s) h hf ht with ⟨-, rfl⟩ | ⟨-, hroom, rfl⟩
    · exact resetWith_inv _ _ _
    · exact (hs hf).takeSample.ticked _ hroom
  · cases hr : (nextSample s).rst with
    | true =>
      cases (tick_reset hr (takeSample s)).symm.trans h
      exact resetWith_inv _ _ _
    | false =>
      cases (tick_faulted (s := takeSample s) hr hf).symm.trans h
      exact absurd ht hf

/-! ## The accumulator below the count (R36 (b)) -/

section AccumulatorFits

variable {s : State}

/-- Once the override has run, the accumulator of a host that keeps its duty is zero from the count on, at the
first pulse of a frame too (70_reset_and_hazards.md R222). -/
theorem override_accFits (hfits : s.cnt ≠ 0#6 → s.AccFits) (hdrained : s.cnt = 0#6 → s.rdy = false → s.acc = 0#64) :
    (override s).AccFits := by
  intro i hi
  cases hr : s.rdy with
  | true => simp [hr]
  | false =>
    simp only [override_cnt, override_acc, hr, cond_false] at hi ⊢
    by_cases hc : s.cnt = 0#6
    · simp [hdrained hc hr]
    · exact hfits hc i hi

/-- Appending a bit at the count sets no position beyond it (20_memory.md R52). -/
theorem afterPulse_accFits (p : Pins) (hroom : pulseOverflows s = false) (h : (override s).AccFits) :
    (afterPulse p s).AccFits := by
  intro i hi
  rw [afterPulse_cnt, bump_toNat _ (count_has_room hroom), ← override_cnt] at hi
  have hold : (override s).acc.getLsbD i = false := h i (by omega)
  have hbit : (oneHot (override s).cnt.toNat).getLsbD i = false := by
    rw [getLsbD_oneHot, decide_eq_false_iff_not]
    omega
  rw [afterPulse_acc, ← override_acc, ← override_cnt, BitVec.getLsbD_or, hold]
  cases linesOf p == LinePair.LH with
  | true => exact hbit
  | false => exact BitVec.getLsbD_zero

theorem sampled_accFits (p : Pins) (hroom : ¬ (restarts p s = true ∧ pulseOverflows s = true))
    (hfits : s.cnt ≠ 0#6 → s.AccFits) (hduty : startsOnDrained p s) (hc : (sampled p s).cnt ≠ 0#6) :
    (sampled p s).AccFits := by
  cases hr : restarts p s with
  | true =>
    rw [sampled_of_pulse hr]
    exact afterPulse_accFits p (by simpa [hr] using hroom) (override_accFits hfits (hduty hr))
  | false =>
    unfold State.AccFits
    rw [sampled_cnt_of_no_pulse hr] at hc ⊢
    rw [sampled_acc_of_no_pulse hr]
    exact hfits hc

/-- The timer leaves held bits alone: a timeout ends with a count of 0. -/
theorem afterTimer_keeps_bits (r : Bool) (hc : (afterTimer r s).cnt ≠ 0#6) :
    (afterTimer r s).cnt = s.cnt ∧ (afterTimer r s).acc = s.acc := by
  rcases afterTimer_cases r s with ⟨-, h⟩ | ⟨-, -, -, h⟩ | ⟨-, -, -, ⟨-, h⟩ | ⟨-, h⟩ | ⟨-, h⟩⟩
  · simp [h]
  · simp [h]
  · simp [h] at hc
  · simp [h] at hc
  · simp [h] at hc

/-- Whatever the host clocks, bits only move down (20_memory.md R53). -/
theorem afterSerial_accFits (p : Pins) (h : s.AccFits) : (afterSerial p s).AccFits := by
  intro i hi
  rw [afterSerial_cnt] at hi
  rcases afterSerial_acc_cases p s with ha | ⟨ha, -⟩
  · exact ha ▸ h i hi
  · rw [ha, BitVec.getLsbD_ushiftRight]
    exact h _ (by omega)

theorem ticked_accFits (p : Pins) (hroom : ¬ (restarts p s = true ∧ pulseOverflows s = true))
    (hfits : s.cnt ≠ 0#6 → s.AccFits) (hduty : startsOnDrained p s) (hc : (ticked p s).cnt ≠ 0#6) :
    (ticked p s).AccFits := by
  have htimer : (afterTimer (restarts p s) (sampled p s)).cnt ≠ 0#6 := by simpa [ticked] using hc
  obtain ⟨hcnt, hacc⟩ := afterTimer_keeps_bits _ htimer
  have hsampled : (sampled p s).AccFits := sampled_accFits p hroom hfits hduty (hcnt ▸ htimer)
  have hfit : (afterTimer (restarts p s) (sampled p s)).AccFits := by
    unfold State.AccFits
    rwa [hcnt, hacc]
  exact afterSerial_accFits p hfit

end AccumulatorFits

/-- Settles O36: a pulse appends below the new count, a timeout ends with no bits held, and the host's clock moves bits down. -/
theorem everyStepKeepsAccumulatorBelowCount : Obligations.EveryStepKeepsAccumulatorBelowCount := by
  intro s t hf hfits hduty h ht hc
  rcases tick_ok (s := takeSample s) h hf ht with ⟨-, rfl⟩ | ⟨-, hroom, rfl⟩
  · exact absurd rfl hc
  · exact ticked_accFits (s := takeSample s) _ hroom hfits hduty hc

/-! ## The staged frame (R36 (c)) -/

section StagedFrame

variable {p : Pins} {s : State}

/-- While a staged frame waits no pulse comes and the timer stands still, so that only the serializer has an operation. -/
theorem afterTimer_sampled_of_ready (hinv : s.Inv) (hs : s.rdy = true) (ht : (ticked p s).rdy = true) :
    restarts p s = false ∧ afterTimer (restarts p s) (sampled p s) = sampled p s := by
  obtain ⟨hr, -⟩ := ready_of_ticked_ready ht
  exact ⟨hr, afterTimer_of_still (.inl (hinv.sampled_tmrRun_of_ready hr hs))⟩

theorem ticked_keeps_staged (hinv : s.Inv) (hs : s.rdy = true) (ht : (ticked p s).rdy = true) :
    (ticked p s).acc = s.acc ∧ (ticked p s).len = s.len ∧ (ticked p s).cnt = s.cnt := by
  obtain ⟨hr, hstill⟩ := afterTimer_sampled_of_ready hinv hs ht
  have hticked : ticked p s = latchSck p.sck (afterSerial p (sampled p s)) := by rw [ticked, hstill]
  rw [hticked] at ht ⊢
  refine ⟨?_, by simp, by simp [sampled_cnt_of_no_pulse hr]⟩
  rcases afterSerial_acc_cases p (sampled p s) with ha | ⟨-, hlow⟩
  · simpa [sampled_acc_of_no_pulse hr] using ha
  · rw [latchSck_rdy, hlow] at ht
    cases ht

end StagedFrame

/-- Settles O40: with `Rdy` at 1 the timer is stopped (I-2), a pulse lowers `Rdy`, and so does the end of a byte. -/
theorem stagedFrameStaysWhileReady : Obligations.StagedFrameStaysWhileReady := by
  intro s t hf hinv h ht hs hready
  rcases tick_ok (s := takeSample s) h hf ht with ⟨-, rfl⟩ | ⟨-, -, rfl⟩
  · cases hready
  · exact ticked_keeps_staged hinv.takeSample hs hready

/-! ## The length in the shift register (R36, last sentence) -/

section LengthInShift

variable {s : State}

theorem sampled_lengthInShift (p : Pins) (h : s.LengthInShift) : (sampled p s).LengthInShift := by
  intro hready
  rw [sampled_rdy, Bool.and_eq_true] at hready
  simpa using h hready.1

/-- A finalization stages the length unshifted, which is right where `SpiCnt` is 0. -/
theorem finalize_lengthInShift (h0 : s.spiCnt = 0#3) : (finalize s).LengthInShift := by
  intro _
  simp [h0]

theorem afterTimer_lengthInShift (h : s.LengthInShift) (r : Bool)
    (h0 : s.tmrRun = true → r = false → s.spiCnt = 0#3) : (afterTimer r s).LengthInShift := by
  rcases afterTimer_cases r s with ⟨-, ht⟩ | ⟨-, -, -, ht⟩ | ⟨hrun, hr, -, ⟨-, ht⟩ | ⟨-, ht⟩ | ⟨-, ht⟩⟩ <;> rw [ht]
  · exact h
  · exact h
  · exact h
  · exact finalize_lengthInShift (h0 hrun hr)
  · exact finalize_lengthInShift (h0 hrun hr)

theorem bumpSpi_toNat {n : BitVec 3} (h : n ≠ 7#3) : (n + 1#3).toNat = n.toNat + 1 := by revert n; decide

/-- An edge inside a byte shifts `SR` and counts in step; the edge that ends it lowers `Rdy` (42_serializer.md R143, R145). -/
theorem afterSerial_lengthInShift (p : Pins) (h : s.LengthInShift) : (afterSerial p s).LengthInShift := by
  intro hready
  rcases afterSerial_cases p s with ⟨-, hs⟩ | ⟨-, -, hs⟩ | ⟨-, h7, hs⟩ <;> rw [hs] at hready ⊢
  · exact h hready
  · cases hready
  · have hsr : s.sr = s.len <<< s.spiCnt.toNat := h hready
    change s.sr <<< 1 = s.len <<< (s.spiCnt + 1#3).toNat
    rw [hsr, bumpSpi_toNat h7, BitVec.shiftLeft_add]

theorem ticked_lengthInShift (p : Pins) (hinv : s.Inv) (h : s.LengthInShift) (h0 : s.rdy = false → s.spiCnt = 0#3) :
    (ticked p s).LengthInShift := by
  have hunread : (sampled p s).tmrRun = true → restarts p s = false → (sampled p s).spiCnt = 0#3 := by
    intro hrun hr
    have hready : s.rdy = false := by
      rw [← Bool.not_eq_true]
      exact fun hs => Bool.noConfusion (hrun.symm.trans (hinv.sampled_tmrRun_of_ready hr hs))
    simpa using h0 hready
  exact afterSerial_lengthInShift p (afterTimer_lengthInShift (sampled_lengthInShift p h) _ hunread)

end LengthInShift

/-- Settles O41: a finalization finds `Rdy` at 0 (I-2), hence `SpiCnt` at 0, and after it `SR` and `SpiCnt` move in step. -/
theorem shiftRegisterHoldsShiftedLengthWhileReady : Obligations.ShiftRegisterHoldsShiftedLengthWhileReady := by
  intro s t hf hinv hlen h0 h ht
  rcases tick_ok (s := takeSample s) h hf ht with ⟨-, rfl⟩ | ⟨-, -, rfl⟩
  · exact nofun
  · exact ticked_lengthInShift (s := takeSample s) _ hinv.takeSample hlen h0

end Sys2Proof.Machine

/-! Proofs of the statements of 20_memory.md: what appending a bit writes (R52), and where
a frame's bits stand (R51). -/

namespace Sys2Proof.Machine

/-! ## Appending a bit (R52) -/

section Append

variable {s : State}

theorem pulseOverflows_of_cnt_ne (hc : s.cnt ≠ 63#6) : pulseOverflows s = false := by
  rw [Bool.eq_false_iff]
  exact fun ho => hc ((pulseOverflows_iff s).1 ho).2

/-- With no frame staged a counted bit writes the position `Cnt`, and there only a 1. -/
theorem counted_getLsbD_acc (b : Bool) (hr : s.rdy = false) (i : Nat) :
    (counted b s).acc.getLsbD i = (s.acc.getLsbD i || (b && decide (i = s.cnt.toNat))) := by
  have hpos : (i < 64 ∧ i = s.cnt.toNat) ↔ i = s.cnt.toNat := by omega
  cases b <;> simp [hr, getLsbD_oneHot, hpos]

end Append

/-- Settles O3: with room in the counter both operations count their bit, and the line latch writes neither `Acc` nor
`Cnt`. -/
theorem appendWritesOnlyTheCountPosition : Obligations.AppendWritesOnlyTheCountPosition := by
  intro prev s hf hr hc
  have hroom (cur : LinePair) : pulseOverflows (latchLines cur s) = false := pulseOverflows_of_cnt_ne hc
  refine ⟨⟨_, (exec_sampleBit1 hf prev).trans (validBit_of_room _ (hroom _)), fun i => ?_⟩,
    ⟨_, (exec_sampleBit0 hf prev).trans (validBit_of_room _ (hroom _)), fun i => ?_⟩⟩
  · exact counted_getLsbD_acc (s := latchLines LinePair.LH s) true hr i
  · rw [counted_getLsbD_acc (s := latchLines LinePair.HL s) false hr, Bool.false_and, Bool.or_false, latchLines_acc]

/-! ## One pulse at the event level (30_encoding.md R93) -/

/-- The line pair of a pulse's leading edge (30_encoding.md R71), as `pulse` writes it. -/
def pulseLines (b : Bool) : LinePair := if b then LinePair.LH else LinePair.HL

theorem pulse_eq (b : Bool) : pulse b = [.line (pulseLines b), .line LinePair.HH] := rfl

theorem exists_linesOf (cur : LinePair) : ∃ p : Pins, linesOf p = cur :=
  ⟨_, linesOf_sampleWith false cur false⟩

theorem idleStops_trailingEdge (stop : Config.IdleStopSet) (b : Bool) :
    idleStops stop (pulseLines b) LinePair.HH = false := by
  cases b <;> rfl

section Pulse

variable {s : State}

/-- From idle lines the leading edge is a valid pulse: `ValidBit(b)` and the line latch (40_sampler.md R102, R103). -/
theorem eventStep_leadingEdge (b : Bool) (hf : s.fault = none) (hl : s.linePrev = LinePair.HH) (hc : s.cnt ≠ 63#6) :
    eventStep (.line (pulseLines b)) s = .next (counted b (latchLines (pulseLines b) s)) := by
  obtain ⟨p, hp⟩ := exists_linesOf (pulseLines b)
  have hmoves : linesOf p ≠ s.linePrev := by rw [hp, hl]; cases b <;> decide
  have hpulse : restarts p s = true := by rw [restarts, hp, hl]; cases b <;> decide
  have hbit : (linesOf p == LinePair.LH) = b := by rw [hp]; cases b <;> decide
  have hstep := eventStep_line hf hmoves (by simp [pulseOverflows_of_cnt_ne hc])
  rwa [sampled_of_pulse hpulse, afterPulse, hbit, hp] at hstep

/-- The trailing edge only stores the lines, whatever the idle-stop set is (R108). -/
theorem eventStep_trailingEdge (b : Bool) (hf : s.fault = none) (hl : s.linePrev = pulseLines b) :
    eventStep (.line LinePair.HH) s = .next (latchLines LinePair.HH s) := by
  obtain ⟨p, hp⟩ := exists_linesOf LinePair.HH
  have hmoves : linesOf p ≠ s.linePrev := by rw [hp, hl]; cases b <;> decide
  have hquiet : restarts p s = false := by rw [restarts, hp, hl]; cases b <;> decide
  have hstep := eventStep_line hf hmoves (by simp [hquiet])
  rcases sampled_cases p s with ⟨h, -, -⟩ | ⟨-, -, hs⟩ | ⟨-, h, -⟩
  · exact absurd h hmoves
  · rwa [hs, afterQuiet, hl, hp, idleStops_trailingEdge] at hstep
  · simp [hquiet] at h

theorem override_latchLines (cur : LinePair) (s : State) :
    override (latchLines cur s) = latchLines cur (override s) := by
  unfold override
  rw [latchLines_rdy]
  split <;> rfl

/-- `ValidBit` does not depend on the line latch (R104). -/
theorem counted_latchLines (b : Bool) (cur : LinePair) (s : State) :
    counted b (latchLines cur s) = latchLines cur (counted b s) := by
  change startTimer (bumpCnt (appendBit b (override (latchLines cur (stopTimer s))))) = _
  rw [override_latchLines]
  cases b <;> rfl

/-- The trailing edge brings the line latch back to where the leading edge found it. -/
theorem latchLines_counted_latchLines (b : Bool) (cur : LinePair) (s : State) :
    latchLines s.linePrev (counted b (latchLines cur s)) = counted b s := by
  rw [counted_latchLines, ← counted_linePrev b s]
  rfl

/-- Both edges of a pulse together count its bit and nothing else. -/
theorem runEvents_pulse (b : Bool) (hf : s.fault = none) (hl : s.linePrev = LinePair.HH) (hc : s.cnt ≠ 63#6) :
    runEvents (pulse b) s = .next (counted b s) := by
  have htrail : eventStep (.line LinePair.HH) (counted b (latchLines (pulseLines b) s)) = .next (counted b s) := by
    rw [eventStep_trailingEdge b (by simpa using hf) (by simp), ← hl, latchLines_counted_latchLines]
  rw [pulse_eq, runEvents, eventStep_leadingEdge b hf hl hc, andThen_next, runEvents_one, htrail]

end Pulse

/-! ## A frame at the event level (R51) -/

/-- What a frame's pulses leave when the counter has room for them all: each bit counted, the first one first. -/
def afterFrame (bits : List Bool) (s : State) : State := bits.foldl (fun t b => counted b t) s

@[simp] theorem afterFrame_nil (s : State) : afterFrame [] s = s := rfl

@[simp] theorem afterFrame_cons (b : Bool) (bits : List Bool) (s : State) :
    afterFrame (b :: bits) s = afterFrame bits (counted b s) := rfl

/-- A frame writes neither what the serializer and the finalization write nor the parameters, and ends with the lines as
they were before it. -/
@[simp] theorem afterFrame_keeps (bits : List Bool) (s : State) :
    (afterFrame bits s).len = s.len ∧ (afterFrame bits s).sr = s.sr ∧ (afterFrame bits s).linePrev = s.linePrev ∧
      (afterFrame bits s).fault = s.fault ∧ (afterFrame bits s).params = s.params := by
  induction bits generalizing s with
  | nil => simp
  | cons b bits ih => simp [ih]

@[simp] theorem afterFrame_tmrRun (bits : List Bool) (s : State) :
    (afterFrame bits s).tmrRun = (s.tmrRun || !bits.isEmpty) := by
  induction bits generalizing s with
  | nil => simp
  | cons b bits ih => simp [ih]

@[simp] theorem afterFrame_rdy (bits : List Bool) (s : State) : (afterFrame bits s).rdy = (s.rdy && bits.isEmpty) := by
  induction bits generalizing s with
  | nil => simp
  | cons b bits ih => simp [ih]

theorem cnt_ne_of_room {n : BitVec 6} {k : Nat} (h : n.toNat + (k + 1) ≤ 63) : n ≠ 63#6 := by
  rintro rfl
  exact absurd h (by simp)

/-- With no frame staged and room in the counter a bit adds one to `Cnt`. -/
theorem counted_cnt_toNat {s : State} (b : Bool) (hr : s.rdy = false) (hc : s.cnt ≠ 63#6) :
    (counted b s).cnt.toNat = s.cnt.toNat + 1 := by
  rw [counted_cnt, hr, cond_false, bump_toNat _ hc]

theorem afterFrame_cnt_toNat (bits : List Bool) {s : State} (hr : s.rdy = false)
    (hroom : s.cnt.toNat + bits.length ≤ 63) : (afterFrame bits s).cnt.toNat = s.cnt.toNat + bits.length := by
  induction bits generalizing s with
  | nil => rfl
  | cons b bits ih =>
    rw [List.length_cons] at hroom ⊢
    have hcnt := counted_cnt_toNat b hr (cnt_ne_of_room hroom)
    rw [afterFrame_cons, ih (counted_rdy b s) (by omega)]
    omega

/-- Bit k of a frame goes to the position k places above the `Cnt` before it, and no other position is written. -/
theorem afterFrame_getLsbD_acc (bits : List Bool) {s : State} (hr : s.rdy = false)
    (hroom : s.cnt.toNat + bits.length ≤ 63) (i : Nat) :
    (afterFrame bits s).acc.getLsbD i =
      (s.acc.getLsbD i || (decide (s.cnt.toNat ≤ i) && bits.getD (i - s.cnt.toNat) false)) := by
  induction bits generalizing s with
  | nil => simp
  | cons b bits ih =>
    rw [List.length_cons] at hroom
    have hcnt := counted_cnt_toNat b hr (cnt_ne_of_room hroom)
    rw [afterFrame_cons, ih (counted_rdy b s) (by omega), counted_getLsbD_acc b hr, hcnt, Bool.or_assoc]
    congr 1
    rcases Nat.lt_trichotomy i s.cnt.toNat with below | rfl | above
    · simp [below.ne, below.not_ge, show ¬ s.cnt.toNat + 1 ≤ i by omega]
    · simp
    · have hnext : i - s.cnt.toNat = i - (s.cnt.toNat + 1) + 1 := by omega
      simp [hnext, above.ne', above.le, Nat.succ_le_of_lt above]

/-- Every pulse of a frame that fits finds room in the counter, so none raises the fault (40_sampler.md R106). -/
theorem runEvents_frame (bits : List Bool) {s : State} (hf : s.fault = none) (hl : s.linePrev = LinePair.HH)
    (hr : s.rdy = false) (hroom : s.cnt.toNat + bits.length ≤ 63) :
    runEvents (frame bits) s = .next (afterFrame bits s) := by
  induction bits generalizing s with
  | nil => rfl
  | cons b bits ih =>
    rw [List.length_cons] at hroom
    have hne : s.cnt ≠ 63#6 := cnt_ne_of_room hroom
    have hcnt := counted_cnt_toNat b hr hne
    rw [frame, List.flatMap_cons, runEvents_append, runEvents_pulse b hf hl hne, andThen_next]
    exact ih (by simpa using hf) (by simpa using hl) (counted_rdy b s) (by omega)

/-- Settles O56: an idle block counts every bit of the frame from position 0 on, over an empty accumulator. -/
theorem frameBitsStandAtTheirPositions : Obligations.FrameBitsStandAtTheirPositions := by
  intro bits s hs hlen
  have hstart : s.cnt.toNat = 0 := by simp [hs.noBits]
  have hroom : s.cnt.toNat + bits.length ≤ 63 := by omega
  obtain ⟨hkeepsLen, hkeepsSr, hkeepsLines, hkeepsFault, -⟩ := afterFrame_keeps bits s
  refine ⟨_, runEvents_frame bits hs.noFault hs.linesIdle hs.notReady hroom, ?_, fun i => ?_, fun hne => ?_, ?_,
    hkeepsLines.trans hs.linesIdle, hkeepsFault.trans hs.noFault, hkeepsLen, hkeepsSr⟩
  · rw [afterFrame_cnt_toNat bits hs.notReady hroom, hstart, Nat.zero_add]
  · simp [afterFrame_getLsbD_acc bits hs.notReady hroom, hs.noBits, hs.accEmpty]
  · simp [hne]
  · simp [hs.notReady]

end Sys2Proof.Machine

/-! Proofs of the statements of 30_encoding.md: decoder and encoder undo each other (R84, R85), the reserved words (R87), the
opcode table (R85, R86), and the placing of a word (log entry 5). -/

namespace Sys2Proof.Machine

/-! ## Which words decode (R84, R87) -/

/-- The fields of the words of a reserved group (R87). -/
def ReservedFields (w : DispatchWord) : Reserved → Prop
  | .lineHighBits => w.extractLsb' 6 2 = 0b00#2 ∧ w.extractLsb' 4 2 ≠ 0#2
  | .noTransition => w.extractLsb' 6 2 = 0b00#2 ∧ w.extractLsb' 4 2 = 0#2 ∧ w.extractLsb' 2 2 = w.extractLsb' 0 2
  | .timerFields => w.extractLsb' 6 2 = 0b01#2 ∧ w ≠ countWord ∧ w.extractLsb' 2 4 ≠ 0b0100#4
  | .spiFields => w.extractLsb' 6 2 = 0b10#2 ∧ w.extractLsb' 3 3 ≠ 0#3
  | .resetFields => w.extractLsb' 6 2 = 0b11#2 ∧ w ≠ resetWord

/-- The words that the parts of a tick and reset can form (R84, R92). -/
inductive Formed : DispatchWord → Prop
  | line (prev cur : LinePair) (h : prev ≠ cur) : Formed (lineWord prev cur)
  | count : Formed countWord
  | expire (cl : BitVec 2) : Formed (expireWord cl)
  | spi (idx : BitVec 3) : Formed (spiWord idx)
  | reset : Formed resetWord

theorem lineWord_of_fields : ∀ {w : DispatchWord}, w.extractLsb' 6 2 = 0b00#2 → w.extractLsb' 4 2 = 0#2 →
    lineWord (w.extractLsb' 2 2) (w.extractLsb' 0 2) = w := by decide

theorem expireWord_of_fields : ∀ {w : DispatchWord}, w.extractLsb' 6 2 = 0b01#2 → w.extractLsb' 2 4 = 0b0100#4 →
    expireWord (w.extractLsb' 0 2) = w := by decide

theorem spiWord_of_fields : ∀ {w : DispatchWord}, w.extractLsb' 6 2 = 0b10#2 → w.extractLsb' 3 3 = 0#3 →
    spiWord (w.extractLsb' 0 3) = w := by decide

theorem twoBits_cases : ∀ b : BitVec 2, b = 0b00#2 ∨ b = 0b01#2 ∨ b = 0b10#2 ∨ b = 0b11#2 := by decide

/-- Every word is one that the block can form, or has the fields of a reserved group. -/
theorem formed_or_reserved (w : DispatchWord) : Formed w ∨ ∃ r, ReservedFields w r := by
  rcases twoBits_cases (w.extractLsb' 6 2) with hsrc | hsrc | hsrc | hsrc
  · by_cases hz : w.extractLsb' 4 2 = 0#2
    · by_cases hmoves : w.extractLsb' 2 2 = w.extractLsb' 0 2
      · exact .inr ⟨.noTransition, hsrc, hz, hmoves⟩
      · exact .inl (lineWord_of_fields hsrc hz ▸ .line _ _ hmoves)
    · exact .inr ⟨.lineHighBits, hsrc, hz⟩
  · by_cases hcount : w = countWord
    · exact .inl (hcount ▸ .count)
    · by_cases hk : w.extractLsb' 2 4 = 0b0100#4
      · exact .inl (expireWord_of_fields hsrc hk ▸ .expire _)
      · exact .inr ⟨.timerFields, hsrc, hcount, hk⟩
  · by_cases hz : w.extractLsb' 3 3 = 0#3
    · exact .inl (spiWord_of_fields hsrc hz ▸ .spi _)
    · exact .inr ⟨.spiFields, hsrc, hz⟩
  · by_cases hreset : w = resetWord
    · exact .inl (hreset ▸ .reset)
    · exact .inr ⟨.resetFields, hsrc, hreset⟩

theorem decode_of_reserved (stop : Config.IdleStopSet) {w : DispatchWord} {r : Reserved} (h : ReservedFields w r) :
    decode stop w = .reserved r := by
  cases r with
  | lineHighBits => obtain ⟨hsrc, hz⟩ := h; simp [decode, hsrc, hz]
  | noTransition => obtain ⟨hsrc, hz, hp⟩ := h; simp [decode, hsrc, hz, hp, lineInstr]
  | timerFields => obtain ⟨hsrc, hcount, hk⟩ := h; simp [decode, hsrc, hcount, hk]
  | spiFields => obtain ⟨hsrc, hz⟩ := h; simp [decode, hsrc, hz]
  | resetFields => obtain ⟨hsrc, hreset⟩ := h; simp [decode, hsrc, hreset]

theorem decode_lineWord_of_some {stop : Config.IdleStopSet} {prev cur : LinePair} {i : Instr}
    (h : lineInstr stop prev cur = some i) : decode stop (lineWord prev cur) = .op i := by
  rw [decode_lineWord, h]

/-- Every word that the block can form decodes to an operation (R87). -/
theorem decode_of_formed (stop : Config.IdleStopSet) {w : DispatchWord} (h : Formed w) : ∃ i, decode stop w = .op i := by
  cases h with
  | line prev cur hmoves =>
    obtain ⟨i, hi⟩ := lineInstr_isSome stop hmoves
    exact ⟨i, decode_lineWord_of_some hi⟩
  | count => exact ⟨_, decode_countWord stop⟩
  | expire cl => exact ⟨_, decode_expireWord stop cl⟩
  | spi idx => exact ⟨_, decode_spiWord stop idx⟩
  | reset => exact ⟨_, decode_resetWord stop⟩

theorem decode_eq_reserved_iff (stop : Config.IdleStopSet) (w : DispatchWord) (r : Reserved) :
    decode stop w = .reserved r ↔ ReservedFields w r := by
  refine ⟨fun h => ?_, decode_of_reserved stop⟩
  rcases formed_or_reserved w with hformed | ⟨r', hr'⟩
  · obtain ⟨i, hi⟩ := decode_of_formed stop hformed
    exact nomatch hi.symm.trans h
  · cases (decode_of_reserved stop hr').symm.trans h
    exact hr'

theorem formed_of_decode {stop : Config.IdleStopSet} {w : DispatchWord} {i : Instr} (h : decode stop w = .op i) :
    Formed w := by
  refine (formed_or_reserved w).resolve_right fun ⟨r, hr⟩ => ?_
  exact nomatch (decode_of_reserved stop hr).symm.trans h

/-! ## The operation of each field (R85, R107) -/

theorem lineInstr_move (stop : Config.IdleStopSet) (move : QuietMove) :
    lineInstr stop move.prev move.cur = some (quietInstr stop move) := by
  cases move <;> rfl

theorem encode_quietInstr (stop : Config.IdleStopSet) (move : QuietMove) :
    encode (quietInstr stop move) = lineWord move.prev move.cur ∧ (quietInstr stop move).wf stop = true := by
  cases hm : stop.has move <;> simp [quietInstr, hm, encode, Instr.wf]

/-- The operation of a transition tells the transition. -/
theorem encode_lineInstr {stop : Config.IdleStopSet} {prev cur : LinePair} {i : Instr}
    (h : lineInstr stop prev cur = some i) : encode i = lineWord prev cur ∧ i.wf stop = true := by
  rcases linePair_cases cur with rfl | rfl | rfl | rfl <;> rcases linePair_cases prev with rfl | rfl | rfl | rfl <;>
    cases h
  · exact ⟨rfl, rfl⟩
  · exact ⟨rfl, rfl⟩
  · exact ⟨rfl, rfl⟩
  · exact ⟨rfl, rfl⟩
  · exact ⟨rfl, rfl⟩
  · exact ⟨rfl, rfl⟩
  · exact encode_quietInstr stop .hlToLl
  · exact encode_quietInstr stop .lhToLl
  · exact encode_quietInstr stop .hhToLl
  · exact ⟨rfl, rfl⟩
  · exact ⟨rfl, rfl⟩
  · exact encode_quietInstr stop .llToHh

theorem encode_expireInstr (stop : Config.IdleStopSet) (cl : BitVec 2) :
    encode (expireInstr cl) = expireWord cl ∧ (expireInstr cl).wf stop = true := by
  rcases twoBits_cases cl with rfl | rfl | rfl | rfl <;> exact ⟨rfl, rfl⟩

theorem encode_spiInstr (stop : Config.IdleStopSet) (idx : BitVec 3) :
    encode (spiInstr idx) = spiWord idx ∧ (spiInstr idx).wf stop = true := by
  by_cases h7 : idx = 7#3 <;> simp [spiInstr, h7, encode, Instr.wf]

theorem lineInstr_zeroPulse (stop : Config.IdleStopSet) {prev : LinePair} (h : prev ≠ LinePair.HL) :
    lineInstr stop prev LinePair.HL = some (.sampleBit0 prev) := by
  simp [lineInstr, h]

theorem lineInstr_onePulse (stop : Config.IdleStopSet) {prev : LinePair} (h : prev ≠ LinePair.LH) :
    lineInstr stop prev LinePair.LH = some (.sampleBit1 prev) := by
  rw [lineInstr, if_neg h, if_neg (by decide), if_pos rfl]

/-! ## Decoder and encoder -/

/-- Settles O19: the word of each instruction is one that the decoder lemmas speak of, and well-formedness is what makes the
fields of that word select the instruction again. -/
theorem decodeOfEncodeIsIdentity : Obligations.DecodeOfEncodeIsIdentity := by
  intro stop i hwf
  cases i with
  | sampleBit0 prev => exact decode_lineWord_of_some (lineInstr_zeroPulse stop (by simpa [Instr.wf] using hwf))
  | sampleBit1 prev => exact decode_lineWord_of_some (lineInstr_onePulse stop (by simpa [Instr.wf] using hwf))
  | sampleIdle move =>
    have hmove : stop.has move = true := hwf
    exact decode_lineWord_of_some ((lineInstr_move stop move).trans (by simp [quietInstr, hmove]))
  | sampleEnd0 => exact decode_lineWord_of_some (stop := stop) rfl
  | sampleEnd1 => exact decode_lineWord_of_some (stop := stop) rfl
  | sampleNoise move =>
    have hmove : stop.has move = false := by simpa [Instr.wf] using hwf
    exact decode_lineWord_of_some ((lineInstr_move stop move).trans (by simp [quietInstr, hmove]))
  | tmrTick => exact decode_countWord stop
  | tmoDiscard cl =>
    have hodd : cl.getLsbD 0 = true := hwf
    exact (decode_expireWord stop cl).trans (by simp [expireInstr, hodd])
  | tmoFinal => exact decode_expireWord stop 0b00#2
  | tmoStrip => exact decode_expireWord stop 0b10#2
  | spiShift idx =>
    have hidx : idx ≠ 7#3 := by simpa [Instr.wf] using hwf
    exact (decode_spiWord stop idx).trans (by simp [spiInstr, hidx])
  | spiByte => exact decode_spiWord stop 7#3
  | reset => exact decode_resetWord stop

/-- Settles O20: a word that decodes is one that the block can form, and the operation of its fields has that word. -/
theorem encodeOfDecodeIsIdentity : Obligations.EncodeOfDecodeIsIdentity := by
  intro stop w i h
  cases formed_of_decode h with
  | line prev cur hmoves =>
    obtain ⟨j, hj⟩ := lineInstr_isSome stop hmoves
    cases (decode_lineWord_of_some hj).symm.trans h
    exact encode_lineInstr hj
  | count => cases (decode_countWord stop).symm.trans h; exact ⟨rfl, rfl⟩
  | expire cl => cases (decode_expireWord stop cl).symm.trans h; exact encode_expireInstr stop cl
  | spi idx => cases (decode_spiWord stop idx).symm.trans h; exact encode_spiInstr stop idx
  | reset => cases (decode_resetWord stop).symm.trans h; exact ⟨rfl, rfl⟩

/-! ## The reserved words (R87) -/

/-- The words of each reserved group by number, as R87 lists them. -/
def ReservedRange (n : Nat) : Reserved → Prop
  | .noTransition => n = 0x00 ∨ n = 0x05 ∨ n = 0x0A ∨ n = 0x0F
  | .lineHighBits => 0x10 ≤ n ∧ n ≤ 0x3F
  | .timerFields => (0x41 ≤ n ∧ n ≤ 0x4F) ∨ (0x54 ≤ n ∧ n ≤ 0x7F)
  | .spiFields => 0x88 ≤ n ∧ n ≤ 0xBF
  | .resetFields => 0xC1 ≤ n ∧ n ≤ 0xFF

theorem reservedFields_iff_range (w : DispatchWord) (r : Reserved) :
    ReservedFields w r ↔ ReservedRange w.toNat r := by
  have hlt : w.toNat < 256 := w.isLt
  cases r with
  | noTransition => revert w; unfold ReservedFields ReservedRange; decide
  | _ =>
    simp only [ReservedFields, ReservedRange, ne_eq, BitVec.toNat_eq, BitVec.extractLsb'_toNat,
      Nat.shiftRight_eq_div_pow, BitVec.toNat_ofNat, countWord, resetWord]
    omega

/-- No part of a tick forms a word that the block cannot form (R101, R122, R124, R142). -/
theorem formed_of_part {p : Pins} {s : State} {restarted : Bool} {w : DispatchWord}
    (h : samplerWord p s = some w ∨ timerWord restarted s = some w ∨ serialWord p s = some w) : Formed w := by
  rcases h with h | h | h
  · unfold samplerWord at h
    split at h
    · cases h
    · next hmoves => cases h; exact .line _ _ (Ne.symm hmoves)
  · unfold timerWord at h
    split at h
    · cases h
      split
      · exact .expire _
      · exact .count
    · cases h
  · unfold serialWord at h
    split at h
    · cases h; exact .spi _
    · cases h

/-- Settles O21: the fields of each reserved group are those of the listed numbers, and no part of a tick forms a word
with such fields. -/
theorem reservedWordsAreExactlyThese : Obligations.ReservedWordsAreExactlyThese := by
  refine ⟨fun stop w => ?_, fun w s r h => by simp only [runWord, h],
    fun w s p restarted hw => decode_of_formed s.params.idleStop (formed_of_part hw)⟩
  have hgroup (r : Reserved) : decode stop w = .reserved r ↔ ReservedRange w.toNat r :=
    (decode_eq_reserved_iff stop w r).trans (reservedFields_iff_range w r)
  refine ⟨(hgroup .noTransition).trans ?_, hgroup .lineHighBits, hgroup .timerFields, hgroup .spiFields,
    hgroup .resetFields⟩
  simp only [ReservedRange, BitVec.toNat_eq, BitVec.toNat_ofNat, Nat.reducePow, Nat.reduceMod]

/-- Settles O22: each of the twelve words is the word of a well-formed instruction. -/
theorem legalLineWordsDecode : Obligations.LegalLineWordsDecode :=
  have decode_encode (i : Instr) (h : i.wf Config.defaultIdleStop = true) :
      decode Config.defaultIdleStop (encode i) = .op i := decodeOfEncodeIsIdentity Config.defaultIdleStop i h
  ⟨decode_encode (.sampleBit0 LinePair.HH) rfl, decode_encode (.sampleBit1 LinePair.HH) rfl,
    decode_encode (.sampleNoise .hhToLl) rfl, decode_encode .sampleEnd0 rfl,
    decode_encode (.sampleBit1 LinePair.HL) rfl, decode_encode (.sampleNoise .hlToLl) rfl,
    decode_encode .sampleEnd1 rfl, decode_encode (.sampleBit0 LinePair.LH) rfl,
    decode_encode (.sampleNoise .lhToLl) rfl, decode_encode (.sampleIdle .llToHh) rfl,
    decode_encode (.sampleBit0 LinePair.LL) rfl, decode_encode (.sampleBit1 LinePair.LL) rfl⟩

/-! ## The opcode table -/

/-- Settles O24, by cases on the instruction, with the lemma of its constructor. -/
theorem encodedWordLiesInOwnRow : Obligations.EncodedWordLiesInOwnRow
  | .sampleBit0 prev => Laws.TableRow.sampleBit0 prev
  | .sampleBit1 prev => Laws.TableRow.sampleBit1 prev
  | .sampleIdle move => Laws.TableRow.sampleIdle move
  | .sampleEnd0 => Laws.TableRow.sampleEnd0
  | .sampleEnd1 => Laws.TableRow.sampleEnd1
  | .sampleNoise move => Laws.TableRow.sampleNoise move
  | .tmrTick => Laws.TableRow.tmrTick
  | .tmoDiscard cl => Laws.TableRow.tmoDiscard cl
  | .tmoFinal => Laws.TableRow.tmoFinal
  | .tmoStrip => Laws.TableRow.tmoStrip
  | .spiShift idx => Laws.TableRow.spiShift idx
  | .spiByte => Laws.TableRow.spiByte
  | .reset => Laws.TableRow.reset

/-- The word of a well-formed instruction selects that instruction's row, and no row tested before it (R86). -/
theorem selectRow_encode {i : Instr} (h : i.wf Config.defaultIdleStop = true) :
    selectRow (encode i) = some i.row := by
  cases i with
  | sampleBit0 prev => revert prev; decide
  | sampleBit1 prev => revert prev; decide
  | sampleIdle move => revert h; cases move <;> decide
  | sampleNoise move => revert h; cases move <;> decide
  | tmoDiscard cl => revert cl; decide
  | spiShift idx => revert idx; decide
  | _ => rfl

theorem selectRow_of_reserved {w : DispatchWord} {r : Reserved} (h : ReservedFields w r) : selectRow w = none := by
  cases r <;> (revert w; unfold ReservedFields; decide)

/-- Settles O23: a word that decodes is the word of its instruction, which selects that instruction's row, and the words of
the reserved groups select none. -/
theorem decoderAgreesWithOpcodeTable : Obligations.DecoderAgreesWithOpcodeTable := by
  intro w
  cases hw : decode Config.defaultIdleStop w with
  | op i =>
    obtain ⟨rfl, hwf⟩ := encodeOfDecodeIsIdentity Config.defaultIdleStop w i hw
    exact selectRow_encode hwf
  | reserved r => exact selectRow_of_reserved ((decode_eq_reserved_iff _ _ _).1 hw)

/-! ## A tick in which one part alone has a trigger (R190) -/

section OneTrigger

variable {p : Pins} {s t : State}

/-- A step takes the listed sample at the head of the list (log entry 4). -/
theorem step_of_listed {rest : List Pins} (h : s.inputs = p :: rest) : step s = tick p (takeSample s) := by
  rw [step, tickNext, nextSample, h, List.headD_cons]

theorem sckFalls_of_same (h : p.sck = s.sckPrev) : sckFalls p s = false := by
  simp [sckFalls, h]

/-- Part 1 alone: the timer is stopped or restarted, and the clock level is the one before. -/
theorem tick_of_sampler_alone (hr : p.rst = false) (hf : s.fault = none) (hck : p.sck = s.sckPrev)
    (hs : runPart (samplerWord p s) s = .next t) (hstill : t.tmrRun = false ∨ restarts p s = true) :
    tick p s = .next t := by
  have hsck : p.sck = t.sckPrev := by
    rcases sampler_next hf hs with ⟨-, -, rfl⟩ | ⟨-, -, rfl⟩ | ⟨-, -, -, rfl⟩
    · exact hck
    · rcases afterQuiet_cases p s with ⟨hq, -⟩ | ⟨hq, -⟩ <;> simpa [hq] using hck
    · simpa using hck
  rw [tick_of_sampler hr hf hs, afterTimer_of_still hstill, afterSerial, sckFalls_of_same hsck, hsck]
  rfl

/-- Without a transition of the lines a tick runs parts 2 and 3. -/
theorem tick_of_still_lines (hr : p.rst = false) (hf : s.fault = none) (hl : linesOf p = s.linePrev) :
    tick p s = .next (latchSck p.sck (afterSerial p (afterTimer false s))) := by
  have hq : restarts p s = false := by simp [restarts, hl]
  rw [tick_of_sampler hr hf (sampler_still hl), hq]

/-- Part 2 alone. -/
theorem tick_of_timer_alone (hr : p.rst = false) (hf : s.fault = none) (hl : linesOf p = s.linePrev)
    (hck : p.sck = s.sckPrev) : tick p s = .next (afterTimer false s) := by
  have hsck : p.sck = (afterTimer false s).sckPrev := by simpa using hck
  rw [tick_of_still_lines hr hf hl, afterSerial, sckFalls_of_same hsck, hsck]
  rfl

/-- The serializer leaves the low level of its edge in `SckPrev` (R142). -/
theorem latchSck_afterSckFall (s : State) : latchSck false (afterSckFall s) = afterSckFall s := by
  unfold afterSckFall
  cases s.spiCnt == 7#3 <;> rfl

/-- Part 3 alone. -/
theorem tick_of_serial_alone (hr : p.rst = false) (hf : s.fault = none) (hl : linesOf p = s.linePrev)
    (hstop : s.tmrRun = false) (hfall : s.sckPrev = true) (hlow : p.sck = false) :
    tick p s = .next (afterSckFall s) := by
  have hedge : sckFalls p s = true := by simp [sckFalls, hfall, hlow]
  rw [tick_of_still_lines hr hf hl, afterTimer_of_still (.inl hstop), afterSerial, hedge, hlow, cond_true,
    latchSck_afterSckFall]

end OneTrigger

/-! ## The placed state, and the tick that it takes (log entry 5) -/

section Placed

variable (s : State)

/-- A word that fills all 8 bits is placed as it stands. -/
theorem withFetchWord_eq (w : DispatchWord) : s.withFetchWord 8 w.toNat = placeWord w s := by
  simp [State.withFetchWord, w.isLt]

/-- The fields of a `LINE` word: source, `PREV` and `CUR` (R84). -/
theorem fields_lineWord : ∀ prev cur : LinePair,
    (lineWord prev cur).extractLsb' 6 2 = 0b00#2 ∧ (lineWord prev cur).extractLsb' 2 2 = prev ∧
      (lineWord prev cur).extractLsb' 0 2 = cur := by decide

/-- The transition's pair before, its sample, and no timer that would count in the same tick. -/
theorem placeWord_lineWord {prev cur : LinePair} {i : Instr} (hi : lineInstr s.params.idleStop prev cur = some i) :
    placeWord (lineWord prev cur) s =
      { s with
        fault := none
        linePrev := prev
        tmrRun := s.tmrRun && !leavesTimer s.params.idleStop prev cur
        inputs := sampleWith false cur s.sckPrev :: s.inputs } := by
  obtain ⟨hsrc, hp, hc⟩ := fields_lineWord prev cur
  simp only [placeWord, decode_lineWord_of_some hi, hsrc, hp, hc, if_true]

theorem placeWord_countWord :
    placeWord countWord s =
      { s with
        fault := none
        tmrRun := true
        params := { s.params with deadlineLess1 := s.tmrCnt + 1, spareTimerBits := 0 }
        inputs := sampleWith false s.linePrev s.sckPrev :: s.inputs } := rfl

theorem expireInstr_ne_tmrTick : ∀ cl : BitVec 2, expireInstr cl ≠ .tmrTick := by decide

theorem placeWord_expireWord (cl : BitVec 2) :
    placeWord (expireWord cl) s =
      { s with
        fault := none
        tmrRun := true
        cnt := (s.cnt.extractLsb' 2 4 ++ cl : BitVec 6)
        params := { s.params with deadlineLess1 := s.tmrCnt, spareTimerBits := 0 }
        inputs := sampleWith false s.linePrev s.sckPrev :: s.inputs } := by
  have hsrc : (expireWord cl).extractLsb' 6 2 = 0b01#2 := by revert cl; decide
  have hc : (expireWord cl).extractLsb' 0 2 = cl := by revert cl; decide
  simp [placeWord, decode_expireWord, hsrc, hc, expireInstr_ne_tmrTick]

theorem placeWord_spiWord (idx : BitVec 3) :
    placeWord (spiWord idx) s =
      { s with
        fault := none
        tmrRun := false
        spiCnt := idx
        sckPrev := true
        inputs := sampleWith false s.linePrev false :: s.inputs } := by
  have hsrc : (spiWord idx).extractLsb' 6 2 = 0b10#2 := by revert idx; decide
  have hc : (spiWord idx).extractLsb' 0 3 = idx := by revert idx; decide
  simp [placeWord, decode_spiWord, hsrc, hc]

theorem placeWord_resetWord :
    placeWord resetWord s = { s with inputs := sampleWith true s.linePrev s.sckPrev :: s.inputs } := rfl

end Placed

/-! ## The step from each placed word -/

section PlacedSteps

/-- A transition that neither is a pulse nor stops the timer leaves the timer to part 2 (R191). -/
theorem leavesTimer_of_quiet {stop : Config.IdleStopSet} {prev cur : LinePair} {i : Instr}
    (hi : lineInstr stop prev cur = some i) (hp : isPulse cur = false) (hq : idleStops stop prev cur = false) :
    leavesTimer stop prev cur = true := by
  simp only [idleStops, hi, Option.any_some] at hq
  rcases lineInstr_by_cur hi with ⟨rfl, -⟩ | ⟨rfl, -⟩ | ⟨-, rfl | rfl⟩ | ⟨-, move, -, rfl⟩
  · cases hp
  · cases hp
  · simp [leavesTimer, hi]
  · simp [leavesTimer, hi]
  · cases hm : stop.has move
    · simp [leavesTimer, hi, quietInstr, hm]
    · simp [quietInstr, hm, isIdleStop] at hq

variable {s t : State}

/-- The timeout operation of a word whose field `CL` is the state's (R84, R124). -/
theorem exec_expireInstr_of_lowCount {cl : BitVec 2} (hf : s.fault = none) (hcl : lowCount s.cnt = cl) :
    exec (expireInstr cl) s = .next (afterTimeout s) :=
  hcl ▸ exec_expireInstr hf

/-- A pulse restarts the timer, an idle stop stops it, and for any other transition the placing has stopped it. -/
theorem step_placed_lineWord {prev cur : LinePair} {i : Instr} (hi : lineInstr s.params.idleStop prev cur = some i)
    (hmoves : prev ≠ cur) (h : exec i (takeSample (placeWord (lineWord prev cur) s)) = .next t) :
    step (placeWord (lineWord prev cur) s) = .next t := by
  rw [placeWord_lineWord s hi] at h ⊢
  rw [step_of_listed rfl]
  have hlines := linesOf_sampleWith false cur s.sckPrev
  refine tick_of_sampler_alone rfl rfl rfl ?_ ?_
  · simpa only [samplerWord, takeSample_linePrev, hlines, if_neg hmoves.symm, runPart, runWord, takeSample_params,
      decode_lineWord_of_some hi] using h
  · rw [exec_lineInstr hi rfl] at h
    cases hp : isPulse cur with
    | true => exact .inr (by simp [restarts, hlines, hp, hmoves.symm])
    | false =>
      rw [hp] at h
      cases h
      cases hq : idleStops s.params.idleStop prev cur with
      | true => simp
      | false => simp [leavesTimer_of_quiet hi hp hq]

/-- The placed deadline lies one tick beyond this one, so part 2 counts. -/
theorem step_placed_countWord : step (placeWord countWord s) = exec .tmrTick (takeSample (placeWord countWord s)) := by
  rw [placeWord_countWord, exec_tmrTick rfl, step_of_listed rfl]
  refine Eq.trans (tick_of_timer_alone rfl rfl (linesOf_sampleWith _ _ _) rfl) ?_
  have hearly : (s.tmrCnt == s.tmrCnt + 1) = false := beq_false_of_ne (Nat.ne_add_one _)
  simp [afterTimer, atDeadline, Config.Params.deadline, hearly]

/-- The placed deadline is this tick, and the word's `CL` is that of the placed count. -/
theorem step_placed_expireWord (cl : BitVec 2) :
    step (placeWord (expireWord cl) s) = exec (expireInstr cl) (takeSample (placeWord (expireWord cl) s)) := by
  rw [placeWord_expireWord, step_of_listed rfl]
  have hcl : lowCount (s.cnt.extractLsb' 2 4 ++ cl : BitVec 6) = cl := BitVec.extractLsb'_append_eq_right
  refine Eq.trans (tick_of_timer_alone rfl rfl (linesOf_sampleWith _ _ _) rfl) ?_
  refine Eq.trans ?_ (exec_expireInstr_of_lowCount rfl hcl).symm
  simp [afterTimer, atDeadline, Config.Params.deadline]

theorem step_placed_spiWord (idx : BitVec 3) :
    step (placeWord (spiWord idx) s) = exec (spiInstr idx) (takeSample (placeWord (spiWord idx) s)) := by
  rw [placeWord_spiWord, step_of_listed rfl]
  exact Eq.trans (tick_of_serial_alone rfl rfl (linesOf_sampleWith _ _ _) rfl rfl rfl) (exec_spiInstr rfl).symm

theorem step_placed_resetWord : step (placeWord resetWord s) = exec .reset (takeSample (placeWord resetWord s)) := by
  rw [placeWord_resetWord, step_of_listed rfl, tick_reset rfl]
  rfl

end PlacedSteps

/-- Settles O33: the placed state and its sample raise the trigger of the word alone, so that the tick runs that part only. -/
theorem placedWordRunsAtTheNextStep : Obligations.PlacedWordRunsAtTheNextStep := by
  intro s t w i hw h
  rw [withFetchWord_eq]
  cases formed_of_decode hw with
  | line prev cur hmoves =>
    obtain ⟨j, hj⟩ := lineInstr_isSome s.params.idleStop hmoves
    cases (decode_lineWord_of_some hj).symm.trans hw
    exact step_placed_lineWord hj hmoves h
  | count =>
    cases (decode_countWord _).symm.trans hw
    exact step_placed_countWord.trans h
  | expire cl =>
    cases (decode_expireWord _ cl).symm.trans hw
    exact (step_placed_expireWord cl).trans h
  | spi idx =>
    cases (decode_spiWord _ idx).symm.trans hw
    exact (step_placed_spiWord idx).trans h
  | reset =>
    cases (decode_resetWord _).symm.trans hw
    exact step_placed_resetWord.trans h

end Sys2Proof.Machine

/-! Proofs of the statements of 40_sampler.md: the six `SAMPLE.*` operations (R102 to R109), the fault of the 64th pulse
(R106, R190), the latches of the samples (R113, R142), and when a part of a tick forms its word (R101, R122, R142). -/

namespace Sys2Proof.Machine

/-! ## `ValidBit` (R104) in its three cases -/

section ValidBit

variable {s : State}

theorem override_of_not_ready (hr : s.rdy = false) : override s = s := by
  simp [override, hr]

theorem override_of_ready (hr : s.rdy = true) : override s = clearCnt (clearAcc (lowerReady s)) := by
  simp [override, hr]

/-- With room in the counter and no frame staged the bit is appended and counted, and the timer restarted. -/
theorem validBit_of_not_ready (b : Bool) (hr : s.rdy = false) (hc : s.cnt ≠ 63#6) :
    validBit b s = .next (startTimer (bumpCnt (appendBit b (stopTimer s)))) := by
  rw [validBit_of_room b (pulseOverflows_of_cnt_ne hc), counted, override_of_not_ready (s := stopTimer s) hr]

/-- Over a staged frame the override comes first, so there is always room (R105). -/
theorem validBit_of_ready (b : Bool) (hr : s.rdy = true) :
    validBit b s = .next (startTimer (bumpCnt (appendBit b (clearCnt (clearAcc (lowerReady (stopTimer s))))))) := by
  have hroom : pulseOverflows s = false := by simp [pulseOverflows, hr]
  rw [validBit_of_room b hroom, counted, override_of_ready (s := stopTimer s) hr]

/-- The 64th pulse, and only it, raises the fault (R106). -/
theorem validBit_eq_fault_iff (b : Bool) :
    validBit b s = .fault .counterOverflow ↔ s.cnt = 63#6 ∧ s.rdy = false := by
  rw [and_comm, ← pulseOverflows_iff]
  cases ho : pulseOverflows s with
  | true => simp [validBit_of_full b ho]
  | false => simp [validBit_of_room b ho]

end ValidBit

/-! ## The 64th pulse (R106, R190) -/

/-- Every operation but RESET is guarded by a standing fault (R106, D24; log entry 7). -/
theorem exec_guarded {i : Instr} (hi : i ≠ .reset) : ∃ run, ∀ s, exec i s = unlessFaulted s run := by
  cases i with
  | reset => exact absurd rfl hi
  | _ => exact ⟨_, fun _ => rfl⟩

theorem exec_of_faulted {i : Instr} {s : State} {f : Fault} (hf : s.fault = some f) (hi : i ≠ .reset) :
    exec i s = .fault f := by
  obtain ⟨run, hrun⟩ := exec_guarded hi
  rw [hrun, unlessFaulted_of_some hf]

/-- Settles O4: both operations are `ValidBit`, part 1 of the tick raises its fault, and the guards and the tick look at a
standing fault before anything else. -/
theorem counterOverflowIsRaisedRecordedAndStands : Obligations.CounterOverflowIsRaisedRecordedAndStands := by
  refine ⟨fun prev s hf => ⟨?_, ?_⟩, fun s hf hr hpulse hc hrdy => ?_, fun i s f hf hi => exec_of_faulted hf hi,
    fun s hf hr => tick_faulted (s := takeSample s) hr hf⟩
  · rw [exec_sampleBit0 hf]
    exact validBit_eq_fault_iff (s := latchLines LinePair.HL s) false
  · rw [exec_sampleBit1 hf]
    exact validBit_eq_fault_iff (s := latchLines LinePair.LH s) true
  · have hfull : pulseOverflows (takeSample s) = true := (pulseOverflows_iff _).2 ⟨hrdy, hc⟩
    exact ⟨_, (tick_eq (s := takeSample s) hr hf).trans (if_pos ⟨hpulse, hfull⟩), rfl, rfl⟩

/-! ## The latches of the samples (R113, R142) -/

section Latches

variable (p : Pins) (r : Bool) (s : State)

/-- Part 1 stores the line pair; without a transition it is there already. -/
@[simp] theorem sampled_linePrev : (sampled p s).linePrev = linesOf p := by
  cases hr : restarts p s with
  | true => simp [sampled_of_pulse hr]
  | false => rcases sampled_of_no_pulse hr with hs | hs <;> simp [hs]

@[simp] theorem afterTimer_linePrev : (afterTimer r s).linePrev = s.linePrev := by
  rcases afterTimer_cases r s with ⟨-, h⟩ | ⟨-, -, -, h⟩ | ⟨-, -, -, ⟨-, h⟩ | ⟨-, h⟩ | ⟨-, h⟩⟩ <;> simp [h]

@[simp] theorem afterSerial_linePrev : (afterSerial p s).linePrev = s.linePrev := by
  rcases afterSerial_cases p s with ⟨-, h⟩ | ⟨-, -, h⟩ | ⟨-, -, h⟩ <;> simp [h]

@[simp] theorem ticked_linePrev : (ticked p s).linePrev = linesOf p := by simp [ticked]

@[simp] theorem ticked_sckPrev : (ticked p s).sckPrev = p.sck := rfl

end Latches

/-- Settles O28: the tick that raises the fault records the lines with it, and any other one leaves them from part 1 and ends
by storing the clock. -/
theorem latchesHoldTheLatestSample : Obligations.LatchesHoldTheLatestSample := by
  intro s t h hr hf
  have htick := (tick_eq (s := takeSample s) hr hf).symm.trans h
  split at htick
  · cases htick
    exact ⟨recordFault_linePrev _ _ _, nofun⟩
  · cases htick
    exact ⟨ticked_linePrev _ _, fun _ => ticked_sckPrev _ _⟩

/-! ## The operations -/

/-- Settles O1: `SAMPLE.BIT0` is `ValidBit(0)` after the line latch, in its three cases. -/
theorem sampleBit0CountsAndRestartsTimer : Obligations.SampleBit0CountsAndRestartsTimer := by
  refine ⟨fun stop prev h => decode_lineWord_of_some (lineInstr_zeroPulse stop h), fun prev s hf => ?_⟩
  rw [exec_sampleBit0 hf]
  exact ⟨fun hr hc => validBit_of_not_ready (s := latchLines LinePair.HL s) false hr hc,
    fun hr => validBit_of_ready (s := latchLines LinePair.HL s) false hr,
    fun hr hc => (validBit_eq_fault_iff false).2 ⟨hc, hr⟩⟩

/-- Settles O2: `SAMPLE.BIT1` is `ValidBit(1)` after the line latch, in its three cases; over a staged frame the bit is the
only one of an emptied accumulator. -/
theorem sampleBit1SetsBitAndRestartsTimer : Obligations.SampleBit1SetsBitAndRestartsTimer := by
  refine ⟨fun stop prev h => decode_lineWord_of_some (lineInstr_onePulse stop h), fun prev s hf => ?_⟩
  rw [exec_sampleBit1 hf]
  refine ⟨fun hr hc => validBit_of_not_ready (s := latchLines LinePair.LH s) true hr hc, fun hr => ?_,
    fun hr hc => (validBit_eq_fault_iff true).2 ⟨hc, hr⟩⟩
  have hfirst : 1#64 = 0#64 ||| oneHot (0#6).toNat := by decide
  rw [hfirst]
  exact validBit_of_ready (s := latchLines LinePair.LH s) true hr

/-- The default idle-stop set holds the transition from both low to both high alone (00_scope.md R7). -/
theorem defaultIdleStop_has_iff (move : QuietMove) : Config.defaultIdleStop.has move = true ↔ move = .llToHh := by
  cases move <;> decide

/-- Settles O5: a transition that the set may hold has the operation that the set gives it, and the stop leaves a held bit
without a running timer. -/
theorem sampleIdleStopsTimerAndKeepsBits : Obligations.SampleIdleStopsTimerAndKeepsBits := by
  refine ⟨fun stop move => decode_lineWord_of_some (lineInstr_move stop move), defaultIdleStop_has_iff,
    fun move s hf => ⟨exec_sampleIdle hf move, fun hr hc => ?_⟩⟩
  simp [phase, hr, hc]

/-- Settles O6: the two words are those of the two operations, and each is the line latch alone. -/
theorem trailingEdgesChangeNothing : Obligations.TrailingEdgesChangeNothing :=
  ⟨fun stop => ⟨decodeOfEncodeIsIdentity stop .sampleEnd0 rfl, decodeOfEncodeIsIdentity stop .sampleEnd1 rfl⟩,
    fun _ hf => ⟨exec_sampleEnd0 hf, exec_sampleEnd1 hf⟩⟩

/-- Settles O7: a transition into both-lines-low is not the one that the default set holds, so its word is that of
`SAMPLE.NOISE`, which is the line latch alone. -/
theorem noiseChangesNothing : Obligations.NoiseChangesNothing := by
  refine ⟨fun move hcur => decodeOfEncodeIsIdentity Config.defaultIdleStop (.sampleNoise move) ?_,
    fun move s hf => exec_sampleNoise hf move⟩
  have hout : Config.defaultIdleStop.has move ≠ true := by
    rw [Ne, defaultIdleStop_has_iff]
    rintro rfl
    exact absurd hcur (by decide)
  simpa [Instr.wf] using hout

/-! ## The words that the parts of a tick form (R84, R101, R122 to R124, R142) -/

section Triggers

variable {p : Pins} {s : State}

theorem samplerWord_of_change (h : linesOf p ≠ s.linePrev) :
    samplerWord p s = some (lineWord s.linePrev (linesOf p)) := if_neg h

theorem samplerWord_of_same (h : linesOf p = s.linePrev) : samplerWord p s = none := if_pos h

theorem timerWord_at_deadline (hrun : s.tmrRun = true) (hd : s.tmrCnt + 1 = s.params.deadline) :
    timerWord false s = some (expireWord (lowCount s.cnt)) := by
  simp [timerWord, atDeadline, hrun, hd]

theorem timerWord_off_deadline (hrun : s.tmrRun = true) (hd : s.tmrCnt + 1 ≠ s.params.deadline) :
    timerWord false s = some countWord := by
  simp [timerWord, atDeadline, hrun, hd]

theorem timerWord_of_restarted : timerWord true s = none := by simp [timerWord]

theorem timerWord_of_stopped (restarted : Bool) (hstop : s.tmrRun = false) : timerWord restarted s = none := by
  simp [timerWord, hstop]

theorem serialWord_of_fall (h : sckFalls p s = true) : serialWord p s = some (spiWord s.spiCnt) := if_pos h

theorem serialWord_of_no_fall (h : sckFalls p s = false) : serialWord p s = none := by
  simp [serialWord, h]

theorem sckFalls_iff : sckFalls p s = true ↔ s.sckPrev = true ∧ p.sck = false := by
  simp [sckFalls]

end Triggers

/-- Settles O26, one lemma for each trigger. -/
theorem triggersFormTheirWords : Obligations.TriggersFormTheirWords := by
  intro p s
  refine ⟨samplerWord_of_change, samplerWord_of_same, timerWord_at_deadline, timerWord_off_deadline,
    timerWord_of_restarted, timerWord_of_stopped false,
    fun hprev hlow => serialWord_of_fall (sckFalls_iff.2 ⟨hprev, hlow⟩), fun hquiet => serialWord_of_no_fall ?_⟩
  rcases hquiet with hprev | hhigh
  · simp [sckFalls, hprev]
  · simp [sckFalls, hhigh]

end Sys2Proof.Machine

/-! Proofs of the statements of 41_frame_timer.md: the timer's operations (R122, R125 to R130), what starts and stops the
timer (R120, R133), the bounded timeout (R123, R235), and whole frames with their timeout (R126 to R134). -/

namespace Sys2Proof.Machine

/-! ## The phase that a timeout leaves (44_lifecycle.md R160) -/

theorem phase_of_rdy {s : State} (h : s.rdy = true) : phase s = .ready := if_pos h

theorem phase_of_nothing_held {s : State} (hr : s.rdy = false) (ht : s.tmrRun = false) (hc : s.cnt = 0#6)
    (ha : s.acc = 0#64) : phase s = .idle := by
  simp [phase, hr, ht, hc, ha]

/-! ## The strip (R128, R129) -/

/-- The strip bit by bit: every bit moves down by one, and the cleared position is cleared after the move. -/
theorem getLsbD_stripAt (a : BitVec 64) (k i : Nat) :
    (stripAt a k).getLsbD i = (a.getLsbD (i + 1) && !decide (i = k)) := by
  by_cases hi : i < 64
  · rw [stripAt, BitVec.getLsbD_and, BitVec.getLsbD_not, getLsbD_oneHot, BitVec.getLsbD_ushiftRight]
    simp [hi, Nat.add_comm]
  · have hhigh : a.getLsbD (i + 1) = false := BitVec.getLsbD_of_ge a _ (by omega)
    simp [stripAt, hi, hhigh]

theorem stripped_of_two_mod_four (p : Config.Params) (a : BitVec 64) {n : BitVec 6} (h : n.toNat % 4 = 2) :
    stripped p a n = stripAt a (clearIndexOf p n) := if_pos ((lowCount_two_iff n).2 h)

theorem highCount_toNat : ∀ n : BitVec 6, (n.extractLsb' 2 4).toNat = n.toNat / 4 := by decide

/-- The entry of `PARITY_CLEAR_INDEX` for a count is the one at a quarter of it (00_scope.md R7). -/
theorem clearIndexOf_of_entry {p : Config.Params} {n : BitVec 6} {k : Fin 64} (h : p.clearIndex[n.toNat / 4]? = some k) :
    clearIndexOf p n = k.val := by
  obtain ⟨hlt, hk⟩ := Vector.getElem?_eq_some_iff.1 h
  simp only [clearIndexOf, highCount_toNat, hk]

theorem defaultClearIndex_entry :
    ∀ n : BitVec 6, n.toNat % 4 = 2 → (Config.defaultClearIndex[n.toNat / 4]?).map Fin.val = some (n.toNat - 2) := by
  decide

/-- The default of R7 clears the place where the last bit of the frame comes to stand. -/
theorem clearIndexOf_default {p : Config.Params} {n : BitVec 6} (hp : p.clearIndex = Config.defaultClearIndex)
    (h : n.toNat % 4 = 2) : clearIndexOf p n = n.toNat - 2 := by
  obtain ⟨k, hk, hval⟩ := Option.map_eq_some_iff.1 (defaultClearIndex_entry n h)
  rw [clearIndexOf_of_entry (hp ▸ hk), hval]

/-- Over a frame that lies below its count the default strip leaves the inner bits, one place down, and nothing else. -/
theorem getLsbD_stripped_default {s : State} (hp : s.params.clearIndex = Config.defaultClearIndex)
    (h : s.cnt.toNat % 4 = 2) (hfits : s.AccFits) (i : Nat) :
    (stripped s.params s.acc s.cnt).getLsbD i = (decide (i + 2 < s.cnt.toNat) && s.acc.getLsbD (i + 1)) := by
  rw [stripped_of_two_mod_four _ _ h, clearIndexOf_default hp h, getLsbD_stripAt]
  rcases Nat.lt_trichotomy (i + 2) s.cnt.toNat with inner | last | above
  · have hkept : i ≠ s.cnt.toNat - 2 := by omega
    simp [inner, hkept]
  · simp [← last]
  · simp [hfits (i + 1) (by omega)]

/-! ## The operations -/

/-- In its range the count is not cut by the width of the register (R28). -/
theorem bumpTimer_of_lt_deadline {s : State} (h : s.tmrCnt < s.params.deadline) :
    bumpTimer s = { s with tmrCnt := s.tmrCnt + 1 } := by
  rw [bumpTimer, timerBits_of_le_deadline h]

theorem expireWord_ne_countWord : ∀ cl : BitVec 2, expireWord cl ≠ countWord := by decide

theorem timerWord_eq_countWord_iff (restarted : Bool) (s : State) :
    timerWord restarted s = some countWord ↔
      s.tmrRun = true ∧ restarted = false ∧ s.tmrCnt + 1 ≠ s.params.deadline := by
  cases restarted with
  | true => simp [timerWord_of_restarted]
  | false =>
    cases hrun : s.tmrRun with
    | false => simp [timerWord_of_stopped false hrun]
    | true =>
      by_cases hd : s.tmrCnt + 1 = s.params.deadline
      · simp [timerWord_at_deadline hrun hd, hd, expireWord_ne_countWord]
      · simp [timerWord_off_deadline hrun hd, hd]

/-- Settles O8: the timer forms the count word off the deadline, and a count below it is off it exactly if its successor is
below it too. -/
theorem timerTickCountsBelowDeadline : Obligations.TimerTickCountsBelowDeadline := by
  refine ⟨decode_countWord, fun s hf hlt => ?_, fun restarted s hlt => ?_⟩
  · rw [exec_tmrTick hf, bumpTimer_of_lt_deadline hlt]
  · have hbelow : s.tmrCnt + 1 ≠ s.params.deadline ↔ s.tmrCnt + 1 < s.params.deadline := by omega
    rw [← hbelow]
    exact timerWord_eq_countWord_iff restarted s

/-- Settles O10: the two words are the expire words of an odd count, and the operation leaves nothing held. -/
theorem discardDropsOddFrame : Obligations.DiscardDropsOddFrame :=
  ⟨fun stop => ⟨decode_expireWord stop 0b01#2, decode_expireWord stop 0b11#2⟩,
    fun cl _ hf => ⟨exec_tmoDiscard hf cl, fun hr => phase_of_nothing_held hr rfl rfl rfl⟩⟩

/-- Settles O11: the word is the expire word of a count of 4 k, and the operation is the staging alone. -/
theorem finalStagesLengthAndKeepsBits : Obligations.FinalStagesLengthAndKeepsBits :=
  ⟨fun stop => decode_expireWord stop 0b00#2, fun _ hf => ⟨exec_tmoFinal hf, phase_of_rdy rfl⟩⟩

/-- Settles O12: the word is the expire word of a count of 4 k + 2, and the cleared position is the entry of the count, which is
`Cnt - 2` by default. -/
theorem stripThenStagesReceivedLength : Obligations.StripThenStagesReceivedLength := by
  refine ⟨fun stop => decode_expireWord stop 0b10#2,
    fun s hf => ⟨exec_tmoStrip hf, fun h4 k hk => ?_, fun hp h4 => ?_⟩⟩
  · rw [stripped_of_two_mod_four _ _ h4, clearIndexOf_of_entry hk]
    rfl
  · rw [stripped_of_two_mod_four _ _ h4, clearIndexOf_default hp h4]
    rfl

/-- Settles O13: the staging after the strip leaves the accumulator to the strip. -/
theorem stripKeepsInnerBitsInOrder : Obligations.StripKeepsInnerBitsInOrder :=
  fun _ hf hp h4 hfits => ⟨_, exec_tmoStrip hf, getLsbD_stripped_default hp h4 hfits⟩

/-! ## What starts and what stops the timer (R120, R133) -/

/-- A transition that is an idle stop is one of the set (40_sampler.md R107). -/
theorem exists_move_of_idleStops {stop : Config.IdleStopSet} {prev cur : LinePair} (h : idleStops stop prev cur = true) :
    ∃ move : QuietMove, move.prev = prev ∧ move.cur = cur ∧ stop.has move = true := by
  obtain ⟨i, hi, hidle⟩ := (Option.any_eq_true _ _).1 h
  cases i with
  | sampleIdle move =>
    obtain ⟨hword, hwf⟩ := encode_lineInstr hi
    obtain ⟨-, hprev, hcur⟩ := fields_lineWord move.prev move.cur
    obtain ⟨-, hprev', hcur'⟩ := fields_lineWord prev cur
    have hsame : lineWord move.prev move.cur = lineWord prev cur := hword
    exact ⟨move, by rw [← hprev, hsame, hprev'], by rw [← hcur, hsame, hcur'], hwf⟩
  | _ => cases hidle

section StartAndStop

variable {p : Pins} {r : Bool} {s : State}

@[simp] theorem afterSerial_tmrRun : (afterSerial p s).tmrRun = s.tmrRun := by
  rcases afterSerial_cases p s with ⟨-, h⟩ | ⟨-, -, h⟩ | ⟨-, -, h⟩ <;> simp [h]

theorem ticked_tmrRun : (ticked p s).tmrRun = (afterTimer (restarts p s) (sampled p s)).tmrRun := by
  simp [ticked]

/-- Part 2 starts no timer. -/
theorem tmrRun_of_afterTimer (h : (afterTimer r s).tmrRun = true) : s.tmrRun = true := by
  rcases afterTimer_cases r s with ⟨-, ht⟩ | ⟨hrun, -⟩ | ⟨hrun, -⟩
  · rwa [ht] at h
  · exact hrun
  · exact hrun

/-- Part 2 stops the timer only at its deadline, and not when it was restarted in this tick. -/
theorem deadline_of_afterTimer_stops (hs : s.tmrRun = true) (ht : (afterTimer r s).tmrRun = false) :
    r = false ∧ s.tmrCnt + 1 = s.params.deadline := by
  rcases afterTimer_cases r s with ⟨-, h⟩ | ⟨-, -, -, h⟩ | ⟨-, hr, hd, -⟩
  · simp [h, hs] at ht
  · simp [h, hs] at ht
  · exact ⟨hr, hd⟩

/-- Part 1 stops a running timer only at an idle stop (40_sampler.md R107). -/
theorem idleStops_of_sampled_stops (hs : s.tmrRun = true) (ht : (sampled p s).tmrRun = false) :
    idleStops s.params.idleStop s.linePrev (linesOf p) = true := by
  rcases sampled_cases p s with ⟨-, -, h⟩ | ⟨-, -, h⟩ | ⟨-, -, h⟩
  · simp [h, hs] at ht
  · rcases afterQuiet_cases p s with ⟨-, hidle⟩ | ⟨hq, -⟩
    · exact hidle
    · simp [h, hq, hs] at ht
  · simp [h] at ht

theorem pulse_of_timer_starts (hs : s.tmrRun = false) (ht : (ticked p s).tmrRun = true) : restarts p s = true := by
  rw [ticked_tmrRun] at ht
  rw [← Bool.not_eq_false]
  intro hr
  simp [tmrRun_of_sampled hr (tmrRun_of_afterTimer ht)] at hs

theorem idleStop_or_deadline_of_timer_stops (hs : s.tmrRun = true) (ht : (ticked p s).tmrRun = false) :
    idleStops s.params.idleStop s.linePrev (linesOf p) = true ∨
      (restarts p s = false ∧ s.tmrCnt + 1 = s.params.deadline) := by
  cases hrun : (sampled p s).tmrRun with
  | false => exact .inl (idleStops_of_sampled_stops hs hrun)
  | true =>
    obtain ⟨hr, hd⟩ := deadline_of_afterTimer_stops hrun (ticked_tmrRun ▸ ht)
    rw [sampled_tmrCnt_of_no_pulse hr, sampled_params] at hd
    exact .inr ⟨hr, hd⟩

end StartAndStop

/-- Settles O43: part 1 starts the timer at a pulse and stops it at an idle stop, part 2 stops it at its deadline, and part 3
leaves it alone. -/
theorem onlyPulsesStartAndOnlyThreeThingsStopTheTimer : Obligations.OnlyPulsesStartAndOnlyThreeThingsStopTheTimer := by
  intro s t hf h ht
  rcases tick_ok (s := takeSample s) h hf ht with ⟨hrst, rfl⟩ | ⟨hrst, -, rfl⟩
  · exact ⟨fun _ hup => Bool.noConfusion hup, fun _ _ => .inl hrst⟩
  · refine ⟨fun hs hup => ⟨hrst, pulse_of_timer_starts (s := takeSample s) hs hup⟩, fun hs hdown => .inr ?_⟩
    exact (idleStop_or_deadline_of_timer_stops (s := takeSample s) hs hdown).imp_left exists_move_of_idleStops

/-! ## The timeout of a silent reader (R123, R124; 70_reset_and_hazards.md R235) -/

/-- The timer runs, and the next samples `ps`, all of a silent reader, are as many as the ticks left to its deadline. No timer
stops on the first of them, since the lines are not released from both low (40_sampler.md R107). -/
structure State.CountsDown (s : State) (ps rest : List Pins) : Prop where
  noFault : s.fault = none
  running : s.tmrRun = true
  oneLineUp : s.linePrev ≠ LinePair.LL
  listed : s.inputs = ps ++ rest
  readerSilent : ∀ p ∈ ps, silent p = true
  ticksLeft : s.tmrCnt + ps.length = s.params.deadline

/-- No frame is staged, and the host leaves the clock low through the samples `ps`. -/
structure State.HostSilent (s : State) (ps : List Pins) : Prop where
  notReady : s.rdy = false
  clockLow : s.sckPrev = false
  staysLow : ∀ p ∈ ps, p.sck = false

/-- `t` is what the timeout leaves of the frame held in `s`, the samples `ps` later (R124 to R127, R130). -/
structure State.TimesOutTo (s : State) (ps rest : List Pins) (t : State) : Prop where
  stopped : t.tmrRun = false
  noBits : t.cnt = 0#6
  listed : t.inputs = rest
  staged : t.len = if s.cnt.toNat % 2 = 0 then s.cnt.setWidth 8 else s.len
  announced : s.HostSilent ps → (ready t = true ↔ s.cnt.toNat % 2 = 0)

section Parts

variable {p : Pins} {r : Bool} {s : State}

@[simp] theorem afterTimer_inputs : (afterTimer r s).inputs = s.inputs := by
  rcases afterTimer_cases r s with ⟨-, h⟩ | ⟨-, -, -, h⟩ | ⟨-, -, -, ⟨-, h⟩ | ⟨-, h⟩ | ⟨-, h⟩⟩ <;> simp [h]

@[simp] theorem afterSerial_inputs : (afterSerial p s).inputs = s.inputs := by
  rcases afterSerial_cases p s with ⟨-, h⟩ | ⟨-, -, h⟩ | ⟨-, -, h⟩ <;> simp [h]

theorem afterTimer_below_deadline (hrun : s.tmrRun = true) (hlt : s.tmrCnt + 1 < s.params.deadline) :
    afterTimer false s = { s with tmrCnt := s.tmrCnt + 1 } := by
  have hd : atDeadline s = false := by simp [atDeadline, hlt.ne]
  rw [← bumpTimer_of_lt_deadline (Nat.lt_of_succ_lt hlt)]
  simp [afterTimer, hrun, hd]

/-- At the deadline the timer stops over no bits, and an even count is staged and announced (R124, R125, R130). -/
theorem afterTimer_at_deadline (hrun : s.tmrRun = true) (hd : s.tmrCnt + 1 = s.params.deadline) :
    (afterTimer false s).tmrRun = false ∧ (afterTimer false s).cnt = 0#6 ∧
      (afterTimer false s).len = (if s.cnt.toNat % 2 = 0 then s.cnt.setWidth 8 else s.len) ∧
      (s.rdy = false → ((afterTimer false s).rdy = true ↔ s.cnt.toNat % 2 = 0)) := by
  rcases afterTimer_cases false s with ⟨hstill, -⟩ | ⟨-, -, hne, -⟩ | ⟨-, -, -, ⟨ho, h⟩ | ⟨h4, h⟩ | ⟨h4, h⟩⟩
  · simp [hrun] at hstill
  · exact absurd hd hne
  · simp [h, ho]
  · have heven : s.cnt.toNat % 2 = 0 := by omega
    simp [h, heven, lengthByte]
  · have heven : s.cnt.toNat % 2 = 0 := by omega
    simp [h, heven, lengthByte]

theorem silent_iff : silent p = true ↔ p.rst = false ∧ linesOf p = LinePair.HH := by
  simp [silent]

theorem restarts_of_silent (h : silent p = true) : restarts p s = false := by
  rw [restarts, (silent_iff.1 h).2, show isPulse LinePair.HH = false from rfl, Bool.and_false]

/-- Unless both lines were low, idle lines are no transition or the end of a pulse, which stores the lines (R108). -/
theorem sampled_of_silent (h : silent p = true) (hl : s.linePrev ≠ LinePair.LL) :
    sampled p s = latchLines LinePair.HH s := by
  have hlines : linesOf p = LinePair.HH := (silent_iff.1 h).2
  have hnoStop : idleStops s.params.idleStop s.linePrev LinePair.HH = false := by
    rcases linePair_cases s.linePrev with hp | hp | hp | hp
    · exact hp ▸ idleStops_trailingEdge _ false
    · exact hp ▸ idleStops_trailingEdge _ true
    · exact absurd hp hl
    · rw [hp]; rfl
  rcases sampled_cases p s with ⟨hsame, -, hs⟩ | ⟨-, -, hs⟩ | ⟨-, hr, -⟩
  · rw [hs, ← hlines, hsame]
    rfl
  · rw [hs, afterQuiet, hlines, hnoStop, cond_false]
  · simp [restarts_of_silent h] at hr

end Parts

section CountsDown

variable {s : State} {p q : Pins} {ps rest : List Pins}

/-- A tick of the count-down runs the timer and the serializer on the state that holds the idle lines. -/
theorem State.CountsDown.step_eq (h : s.CountsDown (p :: ps) rest) :
    step s = .next (latchSck p.sck (afterSerial p (afterTimer false (latchLines LinePair.HH (takeSample s))))) := by
  have hsilent : silent p = true := h.readerSilent p List.mem_cons_self
  have hrst : p.rst = false := (silent_iff.1 hsilent).1
  have hnoPulse : restarts p (takeSample s) = false := restarts_of_silent hsilent
  rw [step_of_listed h.listed, tick_eq (s := takeSample s) hrst h.noFault, if_neg (by simp [hnoPulse]), ticked, hnoPulse,
    sampled_of_silent (s := takeSample s) hsilent h.oneLineUp]

/-- With more than one tick left a tick counts and keeps the frame, and so does a silent host. -/
theorem State.CountsDown.step_below (h : s.CountsDown (p :: q :: ps) rest) :
    ∃ t, step s = .next t ∧ t.CountsDown (q :: ps) rest ∧ t.tmrCnt = s.tmrCnt + 1 ∧ t.cnt = s.cnt ∧ t.len = s.len ∧
      (s.HostSilent (p :: q :: ps) → t.HostSilent (q :: ps)) := by
  have hleft := h.ticksLeft
  rw [List.length_cons] at hleft
  have hlt : s.tmrCnt + 1 < s.params.deadline := by rw [← hleft, List.length_cons]; omega
  have hstep := h.step_eq
  rw [afterTimer_below_deadline (s := latchLines LinePair.HH (takeSample s)) h.running hlt] at hstep
  refine ⟨_, hstep, ?_, by simp, by simp, by simp, fun hhost => ?_⟩
  · exact {
      noFault := by simpa using h.noFault
      running := by simpa using h.running
      oneLineUp := by simp [LinePair.HH, LinePair.LL]
      listed := by simp [h.listed]
      readerSilent := fun x hx => h.readerSilent x (List.mem_cons_of_mem _ hx)
      ticksLeft := by simpa [Nat.add_assoc, Nat.add_comm] using h.ticksLeft }
  · exact {
      notReady := by simp [hhost.notReady]
      clockLow := hhost.staysLow p List.mem_cons_self
      staysLow := fun x hx => hhost.staysLow x (List.mem_cons_of_mem _ hx) }

/-- The last tick of the count-down is the timeout. -/
theorem State.CountsDown.step_last (h : s.CountsDown [p] rest) : ∃ t, step s = .next t ∧ s.TimesOutTo [p] rest t := by
  obtain ⟨hstopped, hnoBits, hlen, hrdy⟩ :=
    afterTimer_at_deadline (s := latchLines LinePair.HH (takeSample s)) h.running h.ticksLeft
  refine ⟨_, h.step_eq, ?_⟩
  exact {
    stopped := by simpa using hstopped
    noBits := by simpa using hnoBits
    listed := by simp [h.listed]
    staged := afterSerial_len.trans hlen
    announced := fun hhost => by simpa [ready, sckFalls, hhost.clockLow] using hrdy hhost.notReady }

theorem coreRun_succ_of_next {M : Host.Core} {u v : M.State} (k : Nat) (h : M.step u = .next v) :
    M.run (k + 1) u = M.run k v := by
  rw [Host.Core.run, h]

theorem run_succ_of_step {t : State} (k : Nat) (h : step s = .next t) :
    Host.Core.run core (k + 1) s = Host.Core.run core k t := coreRun_succ_of_next (M := core) k h

/-- Fewer ticks than are left to the deadline only count. -/
theorem State.CountsDown.run_below {k : Nat} (h : s.CountsDown ps rest) (hk : k < ps.length) :
    ∃ t : State, Host.Core.run core k s = .next t ∧
      t.tmrRun = true ∧ t.cnt = s.cnt ∧ t.tmrCnt = s.tmrCnt + k ∧ t.len = s.len := by
  induction k generalizing s ps with
  | zero => exact ⟨s, rfl, h.running, rfl, rfl, rfl⟩
  | succ k ih =>
    match ps, h, hk with
    | p :: q :: ps, h, hk =>
      obtain ⟨u, hstep, hu, hcount, hcnt, hlen, -⟩ := h.step_below
      obtain ⟨t, hrun, htrun, htcnt, htcount, htlen⟩ := ih hu (Nat.lt_of_succ_lt_succ hk)
      exact ⟨t, (run_succ_of_step k hstep).trans hrun, htrun, htcnt.trans hcnt, by omega, htlen.trans hlen⟩

/-- All the ticks that are left end in the timeout of the count held at their beginning. -/
theorem State.CountsDown.run_all (h : s.CountsDown (p :: ps) rest) :
    ∃ t : State, Host.Core.run core (p :: ps).length s = .next t ∧ s.TimesOutTo (p :: ps) rest t := by
  induction ps generalizing s p with
  | nil =>
    obtain ⟨t, hstep, ht⟩ := h.step_last
    exact ⟨t, run_succ_of_step 0 hstep, ht⟩
  | cons q ps ih =>
    obtain ⟨u, hstep, hu, -, hcnt, hlen, hhost⟩ := h.step_below
    obtain ⟨t, hrun, ht⟩ := ih hu
    refine ⟨t, (run_succ_of_step _ hstep).trans hrun, ?_⟩
    exact {
      stopped := ht.stopped
      noBits := ht.noBits
      listed := ht.listed
      staged := by rw [ht.staged, hcnt, hlen]
      announced := fun hs => hcnt ▸ ht.announced (hhost hs) }

end CountsDown

/-- Settles O51: with the reader silent every tick but the last one left counts, and the last one is the timeout. -/
theorem timeoutComesExactlyAtDeadline : Obligations.TimeoutComesExactlyAtDeadline := by
  intro s ps rest hf hrun hl hin hsilent hpos hleft
  have hdown : s.CountsDown ps rest := ⟨hf, hrun, hl, hin, hsilent, hleft⟩
  refine ⟨fun k hk => hdown.run_below hk, ?_⟩
  obtain ⟨p, ps, rfl⟩ := List.exists_cons_of_length_pos hpos
  obtain ⟨t, hends, ht⟩ := hdown.run_all
  exact ⟨t, hends, ht.stopped, ht.noBits, ht.listed, ht.staged,
    fun hr hck hlow => ht.announced ⟨hr, hck, hlow⟩⟩

/-! ## A frame and its timeout at the event level (R126 to R130, R134) -/

section Timeout

variable {s : State}

theorem afterTimeout_of_odd (h : s.cnt.toNat % 2 = 1) : afterTimeout s = clearAcc (clearCnt (stopTimer s)) := by
  rw [afterTimeout, (odd_iff _).2 h, cond_true]

theorem getLsbD_zero_of_even (h : s.cnt.toNat % 2 = 0) : s.cnt.getLsbD 0 = false := by
  rw [Bool.eq_false_iff, Ne, odd_iff]
  omega

theorem afterTimeout_of_zero_mod_four (h : s.cnt.toNat % 4 = 0) : afterTimeout s = finalize (stopTimer s) := by
  rw [afterTimeout, getLsbD_zero_of_even (by omega), (lowCount_zero_iff _).2 h]
  rfl

theorem afterTimeout_of_two_mod_four (h : s.cnt.toNat % 4 = 2) :
    afterTimeout s = finalize (stripAcc (stopTimer s)) := by
  rw [afterTimeout, getLsbD_zero_of_even (by omega), (lowCount_two_iff _).2 h]
  rfl

end Timeout

section WholeFrame

variable {bits : List Bool} {s : State}

/-- From an idle block the frame's own bits are all that the block holds (20_memory.md R51). -/
theorem afterFrame_of_freshIdle (hs : s.FreshIdle) (hlen : bits.length ≤ 63) :
    runEvents (frame bits) s = .next (afterFrame bits s) ∧ (afterFrame bits s).cnt.toNat = bits.length ∧
      ∀ i, (afterFrame bits s).acc.getLsbD i = bits.getD i false := by
  have hruns : runEvents (frame bits) s = .next (afterFrame bits s) :=
    runEvents_frame bits hs.noFault hs.linesIdle hs.notReady (by simpa [hs.noBits] using hlen)
  obtain ⟨t, ht, hcnt, hacc, -⟩ := frameBitsStandAtTheirPositions bits s hs hlen
  cases hruns.symm.trans ht
  exact ⟨hruns, hcnt, hacc⟩

/-- A frame of at least one bit leaves the timer running, so that it can expire. -/
theorem runEvents_frame_expire (hs : s.FreshIdle) (hne : bits ≠ []) (hlen : bits.length ≤ 63) :
    runEvents (frame bits ++ [.expire]) s = .next (afterTimeout (afterFrame bits s)) := by
  obtain ⟨hruns, -, -⟩ := afterFrame_of_freshIdle hs hlen
  rw [runEvents_append, hruns, andThen_next, runEvents_one]
  exact eventStep_expire (by simp [hs.noFault]) (by simp [hne])

theorem getD_inner (bits : List Bool) (i : Nat) :
    ((bits.drop 1).dropLast).getD i false = (decide (i + 2 < bits.length) && bits.getD (i + 1) false) := by
  have hin : i < (bits.drop 1).length - 1 ↔ i + 2 < bits.length := by rw [List.length_drop]; omega
  rw [List.getD_eq_getElem?_getD, List.getElem?_dropLast, List.getElem?_drop, Nat.add_comm 1 i]
  by_cases h : i + 2 < bits.length
  · rw [if_pos (hin.2 h), decide_eq_true h, Bool.true_and, List.getD_eq_getElem?_getD]
  · rw [if_neg (hin.not.2 h), decide_eq_false h]
    rfl

/-- The timeout of an even frame stages its length, and leaves its payload in the accumulator. -/
theorem afterTimeout_afterFrame_of_even (hs : s.FreshIdle) (hp : s.params.clearIndex = Config.defaultClearIndex)
    (heven : bits.length % 2 = 0) (hlen : bits.length ≤ 63) :
    ∃ u, afterTimeout (afterFrame bits s) = finalize u ∧ u.cnt = (afterFrame bits s).cnt ∧ u.tmrRun = false ∧
      ∀ i, u.acc.getLsbD i = (payloadOf bits).getD i false := by
  obtain ⟨-, hcnt, hacc⟩ := afterFrame_of_freshIdle hs hlen
  by_cases h4 : bits.length % 4 = 2
  · refine ⟨_, afterTimeout_of_two_mod_four (hcnt.symm ▸ h4), rfl, rfl, fun i => ?_⟩
    have hfits : (afterFrame bits s).AccFits := fun i hi => by
      rw [hacc, List.getD_eq_default _ _ (hcnt ▸ hi)]
    have hstrip := getLsbD_stripped_default (s := afterFrame bits s) (by simpa using hp) (hcnt.symm ▸ h4) hfits i
    rw [payloadOf, if_pos h4, getD_inner, ← hacc, ← hcnt]
    exact hstrip
  · refine ⟨_, afterTimeout_of_zero_mod_four (by omega), rfl, rfl, ?_⟩
    rw [payloadOf, if_neg h4]
    exact hacc

end WholeFrame

/-- Settles O57: the frame's bits stand below its count, and the timeout stages the count over what the strip leaves of
them. -/
theorem evenFrameIsStagedWithItsPayload : Obligations.EvenFrameIsStagedWithItsPayload := by
  intro bits s hs hp heven hmin hmax
  have hlen : bits.length ≤ 63 := by omega
  have hruns := runEvents_frame_expire hs (List.ne_nil_of_length_pos (by omega)) hlen
  obtain ⟨-, hcnt, -⟩ := afterFrame_of_freshIdle hs hlen
  obtain ⟨u, hu, hucnt, hustop, huacc⟩ := afterTimeout_afterFrame_of_even hs hp heven hlen
  have hlength : lengthByte u.cnt = BitVec.ofNat 8 bits.length := by
    rw [hucnt, ← hcnt, BitVec.ofNat_toNat, lengthByte]
  exact ⟨finalize u, hu ▸ hruns, rfl, phase_of_rdy rfl, hlength, hlength, rfl, hustop, huacc⟩

/-- Settles O58: the timeout of an odd count clears what the frame wrote, and the frame wrote neither `Len` nor `SR`. -/
theorem oddFrameLeavesNoTrace : Obligations.OddFrameLeavesNoTrace := by
  intro bits s hs hodd hlen
  have hne : bits ≠ [] := by rintro rfl; cases hodd
  have hruns := runEvents_frame_expire hs hne hlen
  obtain ⟨-, hcnt, -⟩ := afterFrame_of_freshIdle hs hlen
  obtain ⟨hkeepsLen, hkeepsSr, -⟩ := afterFrame_keeps bits s
  rw [afterTimeout_of_odd (hcnt.symm ▸ hodd)] at hruns
  have hready : (afterFrame bits s).rdy = false := by simp [hs.notReady]
  exact ⟨_, hruns, hready, phase_of_nothing_held hready rfl rfl rfl, rfl, rfl, hkeepsLen, hkeepsSr⟩

end Sys2Proof.Machine

/-! Proofs of the statements of 42_serializer.md: the two `SPI.*` operations (R143 to R146), one byte and a run of bytes as the
host reads them (R147, R148, R150), and that no serial clock disturbs framing (R152, R200). -/

namespace Sys2Proof.Machine

/-! ## What frames are made of, part by part (R152, 60_exceptions.md R200) -/

section FramingParts

variable {p q : Pins} {a b : State}

theorem State.FramingAgrees.symm (h : a.FramingAgrees b) : b.FramingAgrees a :=
  ⟨h.cnt.symm, h.len.symm, h.tmrRun.symm, h.tmrCnt.symm, h.linePrev.symm, h.params.symm⟩

theorem State.FramingAgrees.trans {c : State} (h : a.FramingAgrees b) (h' : b.FramingAgrees c) : a.FramingAgrees c :=
  ⟨h.cnt.trans h'.cnt, h.len.trans h'.len, h.tmrRun.trans h'.tmrRun, h.tmrCnt.trans h'.tmrCnt,
    h.linePrev.trans h'.linePrev, h.params.trans h'.params⟩

/-- The serializer writes nothing that frames are made of, whatever the clock does (R152). -/
theorem afterSerial_framingAgrees (p : Pins) (s : State) : (afterSerial p s).FramingAgrees s where
  cnt := afterSerial_cnt
  len := afterSerial_len
  tmrRun := afterSerial_tmrRun
  tmrCnt := afterSerial_tmrCnt p s
  linePrev := afterSerial_linePrev p s
  params := afterSerial_params p s

theorem State.FramingAgrees.stopTimer (h : a.FramingAgrees b) : (stopTimer a).FramingAgrees (stopTimer b) :=
  { h with tmrRun := rfl }

theorem State.FramingAgrees.discard (h : a.FramingAgrees b) :
    (clearAcc (clearCnt (Machine.stopTimer a))).FramingAgrees (clearAcc (clearCnt (Machine.stopTimer b))) :=
  { h with cnt := rfl, tmrRun := rfl }

/-- The staged length is made of the count alone (41_frame_timer.md R130). -/
theorem State.FramingAgrees.finalize (h : a.FramingAgrees b) : (finalize a).FramingAgrees (finalize b) :=
  { h with cnt := rfl, len := congrArg lengthByte h.cnt }

theorem State.FramingAgrees.stripAcc (h : a.FramingAgrees b) : (stripAcc a).FramingAgrees (stripAcc b) := { h with }

theorem State.FramingAgrees.bumpTimer (h : a.FramingAgrees b) : (bumpTimer a).FramingAgrees (bumpTimer b) :=
  { h with tmrCnt := by rw [bumpTimer_tmrCnt, bumpTimer_tmrCnt, h.tmrCnt, h.params] }

theorem State.FramingAgrees.latchLines (cur : LinePair) (h : a.FramingAgrees b) :
    (latchLines cur a).FramingAgrees (latchLines cur b) :=
  { h with linePrev := rfl }

/-- Which timeout it is, and what it stages, is the count's alone (41_frame_timer.md R124). -/
theorem State.FramingAgrees.afterTimeout (h : a.FramingAgrees b) : (afterTimeout a).FramingAgrees (afterTimeout b) := by
  unfold Machine.afterTimeout
  rw [h.cnt]
  cases b.cnt.getLsbD 0 with
  | true => exact h.discard
  | false =>
    cases lowCount b.cnt == 0#2 with
    | true => exact h.stopTimer.finalize
    | false => exact h.stopTimer.stripAcc.finalize

/-- Both counts reach the one deadline in the same tick (41_frame_timer.md R122, R123). -/
theorem State.FramingAgrees.afterTimer (r : Bool) (h : a.FramingAgrees b) :
    (afterTimer r a).FramingAgrees (afterTimer r b) := by
  have hdeadline : atDeadline a = atDeadline b := by simp only [atDeadline, h.tmrCnt, h.params]
  unfold Machine.afterTimer
  rw [h.tmrRun, hdeadline]
  cases b.tmrRun && !r with
  | false => exact h
  | true =>
    cases atDeadline b with
    | true => exact h.afterTimeout
    | false => exact h.bumpTimer

theorem State.FramingAgrees.restarts (h : a.FramingAgrees b) (hl : linesOf p = linesOf q) :
    restarts p a = restarts q b := by
  simp only [Machine.restarts, h.linePrev, hl]

theorem State.FramingAgrees.afterQuiet (h : a.FramingAgrees b) (hl : linesOf p = linesOf q) :
    (afterQuiet p a).FramingAgrees (afterQuiet q b) := by
  unfold Machine.afterQuiet
  rw [h.params, h.linePrev, hl]
  cases idleStops b.params.idleStop b.linePrev (linesOf q) with
  | true => exact h.stopTimer.latchLines _
  | false => exact h.latchLines _

/-- Where `Rdy` is 1 the count is 0 already (I-2), so the override never shows in the count (40_sampler.md R105). -/
theorem State.Inv.override_keeps_cnt {s : State} (h : s.Inv) : (bif s.rdy then 0#6 else s.cnt) = s.cnt := by
  cases hr : s.rdy with
  | true => exact (h.readyIsStill hr).1.symm
  | false => rfl

theorem State.Inv.pulseOverflows_eq {s : State} (h : s.Inv) : pulseOverflows s = (s.cnt == 63#6) := by
  rw [pulseOverflows, override_cnt, h.override_keeps_cnt]

theorem State.FramingAgrees.afterPulse (h : a.FramingAgrees b) (ha : a.Inv) (hb : b.Inv) (hl : linesOf p = linesOf q) :
    (afterPulse p a).FramingAgrees (afterPulse q b) where
  cnt := by rw [afterPulse_cnt, afterPulse_cnt, ha.override_keeps_cnt, hb.override_keeps_cnt, h.cnt]
  len := by simpa using h.len
  tmrRun := by simp
  tmrCnt := by simp
  linePrev := by simpa using hl
  params := by simpa using h.params

theorem State.FramingAgrees.sampled (h : a.FramingAgrees b) (ha : a.Inv) (hb : b.Inv) (hl : linesOf p = linesOf q) :
    (sampled p a).FramingAgrees (sampled q b) := by
  unfold Machine.sampled
  rw [h.linePrev, hl]
  cases linesOf q == b.linePrev with
  | true => exact h
  | false =>
    cases isPulse (linesOf q) with
    | true => exact h.afterPulse ha hb hl
    | false => exact h.afterQuiet hl

/-- The parts of a tick without the 64th pulse write no fault. -/
theorem ticked_fault (p : Pins) (s : State) : (ticked p s).fault = s.fault := by
  rcases sampled_cases p s with ⟨-, -, hs⟩ | ⟨-, -, hs⟩ | ⟨-, -, hs⟩ <;> simp [Machine.ticked, hs]

theorem State.FramingAgrees.ticked (h : a.FramingAgrees b) (ha : a.Inv) (hb : b.Inv) (hl : linesOf p = linesOf q) :
    (ticked p a).FramingAgrees (ticked q b) := by
  have htimer : (Machine.afterTimer (Machine.restarts p a) (Machine.sampled p a)).FramingAgrees
      (Machine.afterTimer (Machine.restarts q b) (Machine.sampled q b)) :=
    h.restarts hl ▸ (h.sampled ha hb hl).afterTimer _
  have hserial := ((afterSerial_framingAgrees p _).trans htimer).trans (afterSerial_framingAgrees q _).symm
  exact { hserial with }

/-- Ticks on samples with the same lines, whatever their clocks are, raise the fault together, or leave states that agree. -/
theorem State.FramingAgrees.tick {ta tb : State} (h : a.FramingAgrees b) (ha : a.Inv) (hb : b.Inv) (hfa : a.fault = none)
    (hfb : b.fault = none) (hr : p.rst = q.rst) (hl : linesOf p = linesOf q) (hta : tick p a = .next ta)
    (htb : tick q b = .next tb) : ta.fault = tb.fault ∧ (ta.fault = none → ta.FramingAgrees tb) := by
  cases hrst : q.rst with
  | true =>
    cases (tick_reset (hr.trans hrst) a).symm.trans hta
    cases (tick_reset hrst b).symm.trans htb
    exact ⟨rfl, fun _ => ⟨rfl, rfl, rfl, rfl, rfl, h.params⟩⟩
  | false =>
    rw [tick_eq (hr.trans hrst) hfa, h.restarts hl, ha.pulseOverflows_eq, h.cnt, ← hb.pulseOverflows_eq] at hta
    rw [tick_eq hrst hfb] at htb
    by_cases hfull : Machine.restarts q b = true ∧ pulseOverflows b = true
    · rw [if_pos hfull] at hta htb
      cases hta
      cases htb
      exact ⟨rfl, nofun⟩
    · rw [if_neg hfull] at hta htb
      cases hta
      cases htb
      exact ⟨by rw [ticked_fault, ticked_fault, hfa, hfb], fun _ => h.ticked ha hb hl⟩

end FramingParts

/-- Settles O48: no part of a tick reads for the framing what clocking changes: the override reads `Rdy`, but a staged frame
leaves no count to override (I-2). -/
theorem hostClockCannotDisturbFraming : Obligations.HostClockCannotDisturbFraming := by
  intro a b ta tb ha hb hfa hfb h hr hl hta htb
  have hsampled : (takeSample a).FramingAgrees (takeSample b) := { h with }
  exact hsampled.tick ha.takeSample hb.takeSample hfa hfb hr hl hta htb

/-! ## The bit-order corrector (R146) -/

/-- Settles O16: bit 7 - i is the reversal's own rule, reversing twice restores every bit, and the seven values are
computed. -/
theorem rev8ReversesBits : Obligations.Rev8ReversesBits :=
  ⟨fun b _ hi => getLsbD_rev8 b hi, fun _ => BitVec.reverse_reverse_eq, by decide⟩

/-! ## The operations -/

/-- Settles O14: the word of an index below 7 is the one that the operation's encoding has. -/
theorem spiShiftMovesOneBit : Obligations.SpiShiftMovesOneBit :=
  ⟨fun stop idx h => decodeOfEncodeIsIdentity stop (.spiShift idx) (by simpa [Instr.wf] using h),
    fun idx _ hf => exec_spiShift hf idx⟩

/-- The byte load overwrites the last shift of `SR` and the raised `TxPend` (R144, R145). -/
theorem spiByte_eq_afterHostByte (s : State) :
    latchSck false (txByte (markTxPend (clearSpi (shiftOut s)))) = afterHostByte s := by
  simp only [latchSck, txByte, takeByte, clearTxPend, lowerReady, markTxPend, clearSpi, shiftOut, afterHostByte,
    payloadByte]

/-- Settles O15: the word is that of index 7, and the operation leaves what `HostByte()` leaves. -/
theorem spiByteLoadsNextByteAndDrains : Obligations.SpiByteLoadsNextByteAndDrains :=
  ⟨fun stop => decode_spiWord stop 7#3,
    fun s hf => (exec_spiByte hf).trans (congrArg Host.Outcome.next (spiByte_eq_afterHostByte s))⟩

/-! ## One byte (R150) -/

/-- What `k` falling edges, fewer than eight, leave from `SpiCnt` = 0. -/
def afterEdges (k : Nat) (s : State) : State :=
  { s with sr := s.sr <<< k, spiCnt := BitVec.ofNat 3 k, sckPrev := s.sckPrev && k == 0 }

section OneByte

variable {s : State}

theorem afterSckFall_of_ne_seven (h : s.spiCnt ≠ 7#3) : afterSckFall s = latchSck false (bumpSpi (shiftOut s)) := by
  rw [afterSckFall, beq_eq_false_iff_ne.2 h, cond_false]

theorem afterSckFall_of_seven (h : s.spiCnt = 7#3) : afterSckFall s = afterHostByte s := by
  rw [afterSckFall, beq_iff_eq.2 h, cond_true, spiByte_eq_afterHostByte]

theorem afterEdges_zero (h0 : s.spiCnt = 0#3) : afterEdges 0 s = s := by
  simp [afterEdges, ← h0]

theorem ofNat_ne_seven {k : Nat} (hk : k < 7) : BitVec.ofNat 3 k ≠ 7#3 := by
  revert k; decide

/-- An edge inside a byte is one more place in `SR` and one more in `SpiCnt` (R143). -/
theorem afterSckFall_afterEdges {k : Nat} (hk : k < 7) (s : State) :
    afterSckFall (afterEdges k s) = afterEdges (k + 1) s := by
  rw [afterSckFall_of_ne_seven (s := afterEdges k s) (ofNat_ne_seven hk)]
  simp [afterEdges, latchSck, bumpSpi, shiftOut, BitVec.shiftLeft_add, BitVec.ofNat_add]

/-- The eighth edge loads over what the seven before it shifted (R144, R145). -/
theorem afterSckFall_afterEdges_seven (s : State) : afterSckFall (afterEdges 7 s) = afterHostByte s := by
  rw [afterSckFall_of_seven (s := afterEdges 7 s) rfl]
  simp only [afterHostByte, afterEdges, payloadByte]

theorem runEvents_edges {k : Nat} (hf : s.fault = none) (h0 : s.spiCnt = 0#3) (hk : k < 8) :
    runEvents (List.replicate k .sckFall) s = .next (afterEdges k s) := by
  induction k with
  | zero => rw [afterEdges_zero h0]; rfl
  | succ k ih =>
    rw [List.replicate_succ', runEvents_append, ih (Nat.lt_of_succ_lt hk), andThen_next, runEvents_one,
      eventStep_sckFall (s := afterEdges k s) hf, afterSckFall_afterEdges (Nat.lt_of_succ_lt_succ hk)]

theorem runEvents_clockByte (hf : s.fault = none) (h0 : s.spiCnt = 0#3) :
    runEvents clockByte s = .next (afterHostByte s) := by
  rw [clockByte, List.replicate_succ', runEvents_append, runEvents_edges hf h0 (by decide), andThen_next, runEvents_one,
    eventStep_sckFall (s := afterEdges 7 s) hf, afterSckFall_afterEdges_seven]

/-- The port shows the bits of `SR` from the highest on (R141). -/
theorem dout_afterEdges {k : Nat} (hk : k < 8) (s : State) : dout (afterEdges k s) = s.sr.getLsbD (7 - k) := by
  have hin : ¬ 7 < k := by omega
  rw [dout, afterEdges, BitVec.getLsbD_shiftLeft]
  simp [hin]

end OneByte

/-- Settles O53: seven edges shift, and the eighth one runs the transmitter. -/
theorem eightEdgesAreOneHostByte : Obligations.EightEdgesAreOneHostByte :=
  fun s hf h0 => ⟨runEvents_clockByte hf h0, fun _ hk => ⟨_, runEvents_edges hf h0 hk, dout_afterEdges hk s, rfl⟩⟩

/-! ## A run of bytes (R147, R148) -/

section Bytes

@[simp] theorem iterate_afterHostByte_fault (n : Nat) (s : State) : (afterHostByte^[n] s).fault = s.fault := by
  induction n generalizing s with
  | zero => rfl
  | succ n ih => exact ih (afterHostByte s)

theorem iterate_afterHostByte_acc (n : Nat) (s : State) : (afterHostByte^[n] s).acc = s.acc >>> (8 * n) := by
  induction n generalizing s with
  | zero => simp
  | succ n ih =>
    rw [Function.iterate_succ_apply, ih, Nat.mul_succ, Nat.add_comm, BitVec.shiftRight_add]
    rfl

/-- Whole bytes clocked from `SpiCnt` = 0 are as many `HostByte()`. -/
theorem runEvents_clockBytes (n : Nat) {s : State} (hf : s.fault = none) (h0 : s.spiCnt = 0#3) :
    runEvents (List.replicate n clockByte).flatten s = .next (afterHostByte^[n] s) := by
  induction n generalizing s with
  | zero => rfl
  | succ n ih =>
    rw [List.replicate_succ, List.flatten_cons, runEvents_append, runEvents_clockByte hf h0, andThen_next]
    exact ih hf rfl

/-- After `n + 1` bytes `SR` holds byte `n` of the accumulator as it was at the start, reversed (R147). -/
theorem iterate_afterHostByte_sr (n : Nat) (s : State) :
    (afterHostByte^[n + 1] s).sr = rev8 ((s.acc >>> (8 * n)).extractLsb' 0 8) := by
  rw [Function.iterate_succ_apply', ← iterate_afterHostByte_acc]
  rfl

/-- Beyond its eight bytes the accumulator gives zeros (R148). -/
theorem rev8_byte_of_ge_eight (acc : BitVec 64) {k : Nat} (hk : 8 ≤ k) :
    rev8 ((acc >>> (8 * k)).extractLsb' 0 8) = 0#8 := by
  rw [BitVec.ushiftRight_eq_zero (by omega)]
  decide

end Bytes

/-- Settles O54: every byte clocked is one `HostByte()`, which loads the low byte of what those before it left. -/
theorem payloadBytesFollowInOrder : Obligations.PayloadBytesFollowInOrder := by
  intro s k hf h0
  have hlast : afterHostByte^[k + 1] s = afterHostByte (afterHostByte^[k] s) := Function.iterate_succ_apply' _ k s
  have hsr := iterate_afterHostByte_sr k s
  exact ⟨_, runEvents_clockBytes (k + 1) hf h0, hsr, iterate_afterHostByte_acc (k + 1) s, congrArg State.rdy hlast,
    congrArg State.spiCnt hlast, (iterate_afterHostByte_fault _ s).trans hf,
    fun hk => hsr.trans (rev8_byte_of_ge_eight s.acc hk)⟩

end Sys2Proof.Machine

/-! Proofs of the statements of 44_lifecycle.md: the serial bit index (R167), the transition table of the phases (R161), and
what leaves SUSPENDED (R164). -/

namespace Sys2Proof.Machine

/-! ## The serial bit index (R167) -/

section SerialIndex

variable (p : Pins) (s : State)

/-- The wrap from 7 to 0 at the end of a byte is the count modulo 8 (42_serializer.md R143, R144). -/
theorem afterSerial_spiCnt : (afterSerial p s).spiCnt = if sckFalls p s = true then s.spiCnt + 1#3 else s.spiCnt := by
  rcases afterSerial_cases p s with ⟨hstill, h⟩ | ⟨hfall, h7, h⟩ | ⟨hfall, -, h⟩
  · simp [h, hstill]
  · simp [h, hfall, h7]
  · simp [h, hfall]

theorem ticked_spiCnt : (ticked p s).spiCnt = if sckFalls p s = true then s.spiCnt + 1#3 else s.spiCnt := by
  simp [ticked, afterSerial_spiCnt]

end SerialIndex

/-- Settles O45: of the parts of a tick the serializer alone writes `SpiCnt`. -/
theorem spiCountFollowsFallingEdgesAlone : Obligations.SpiCountFollowsFallingEdgesAlone := by
  intro s t hf h ht
  rcases tick_ok (s := takeSample s) h hf ht with ⟨hrst, rfl⟩ | ⟨hrst, -, rfl⟩
  · rw [if_pos hrst]
    rfl
  · rw [hrst, if_neg Bool.false_ne_true]
    exact ticked_spiCnt (nextSample s) (takeSample s)

/-! ## The phase and the operations (R160, R161) -/

section Phases

variable {s : State}

theorem phase_eq_accumulating_iff : phase s = .accumulating ↔ s.rdy = false ∧ s.tmrRun = true := by
  unfold phase
  split_ifs <;> simp_all

theorem phase_eq_suspended_iff : phase s = .suspended ↔ s.rdy = false ∧ s.tmrRun = false ∧ s.cnt ≠ 0#6 := by
  unfold phase
  split_ifs <;> simp_all

/-- With no bits counted and no frame staged, the accumulator alone decides. -/
theorem phase_of_uncounted (hr : s.rdy = false) (ht : s.tmrRun = false) (hc : s.cnt = 0#6) :
    phase s = if s.acc = 0#64 then .idle else .draining := by
  by_cases ha : s.acc = 0#64 <;> simp [phase, hr, ht, hc, ha]

theorem phase_counted (b : Bool) (s : State) : phase (counted b s) = .accumulating :=
  phase_eq_accumulating_iff.2 ⟨counted_rdy b s, counted_tmrRun b s⟩

theorem State.Inv.not_ready_of_running (h : s.Inv) (hrun : s.tmrRun = true) : s.rdy = false :=
  Bool.eq_false_iff.2 fun hr => Bool.noConfusion (hrun.symm.trans (h.readyIsStill hr).2)

/-- Stopping a running timer leaves held bits waiting (I-1); stopping a stopped one changes nothing (40_sampler.md R107). -/
theorem State.Inv.phase_stopTimer (h : s.Inv) :
    phase (Machine.stopTimer s) = if phase s = .accumulating then .suspended else phase s := by
  cases hrun : s.tmrRun with
  | false =>
    have hstopped : Machine.stopTimer s = s := by rw [Machine.stopTimer, ← hrun]
    rw [hstopped, if_neg (by simp [phase_eq_accumulating_iff, hrun])]
  | true =>
    have hr : s.rdy = false := h.not_ready_of_running hrun
    rw [if_pos (phase_eq_accumulating_iff.2 ⟨hr, hrun⟩)]
    exact phase_eq_suspended_iff.2 ⟨hr, rfl, h.timerHoldsBits hrun⟩

/-- While bits are counted the phase looks at the timer alone, since no frame is staged (I-2). -/
theorem State.Inv.phase_of_counted (h : s.Inv) (hc : s.cnt ≠ 0#6) :
    phase s = if s.tmrRun = true then .accumulating else .suspended := by
  have hr : s.rdy = false := Bool.eq_false_iff.2 fun hr => hc (h.readyIsStill hr).1
  simp [phase, hr, hc]

/-- The end of a byte takes a byte of a frame that is read, and else keeps the phase: held bits are counted whatever the
accumulator holds, and an idle block has no byte to take (42_serializer.md R145, R150). -/
theorem State.Inv.phase_afterHostByte (h : s.Inv) :
    phase (afterHostByte s) = if phase s = .ready ∨ phase s = .draining then drained s else phase s := by
  by_cases hc : s.cnt = 0#6
  · have hrun : s.tmrRun = false := Bool.eq_false_iff.2 fun hrun => h.timerHoldsBits hrun hc
    have hdrained : phase (afterHostByte s) = drained s := phase_of_uncounted rfl hrun hc
    rw [hdrained]
    cases hr : s.rdy with
    | true => simp [phase_of_rdy hr]
    | false => by_cases ha : s.acc = 0#64 <;> simp [phase_of_uncounted hr hrun hc, ha, drained]
  · have hkept : phase (afterHostByte s) = phase s := by
      rw [h.phase_of_counted hc]
      simp [phase, afterHostByte, hc]
    rw [hkept, h.phase_of_counted hc]
    cases s.tmrRun <;> simp

end Phases

/-- Settles O46: the operations that keep the phase write nothing that it is read from, and each of the others has its lemma. -/
theorem phaseTransitionsFollowTheTable : Obligations.PhaseTransitionsFollowTheTable := by
  intro i s t hinv hf henabled h
  cases i with
  | sampleBit0 prev =>
    obtain ⟨-, rfl⟩ := validBit_next ((exec_sampleBit0 hf prev).symm.trans h)
    exact phase_counted _ _
  | sampleBit1 prev =>
    obtain ⟨-, rfl⟩ := validBit_next ((exec_sampleBit1 hf prev).symm.trans h)
    exact phase_counted _ _
  | sampleIdle move =>
    cases (exec_sampleIdle hf move).symm.trans h
    exact hinv.phase_stopTimer
  | sampleEnd0 => cases (exec_sampleEnd0 hf).symm.trans h; rfl
  | sampleEnd1 => cases (exec_sampleEnd1 hf).symm.trans h; rfl
  | sampleNoise move => cases (exec_sampleNoise hf move).symm.trans h; rfl
  | tmrTick => cases (exec_tmrTick hf).symm.trans h; rfl
  | tmoDiscard cl =>
    obtain ⟨⟨hrun, -⟩, -⟩ : (s.tmrRun = true ∧ _) ∧ _ := by simpa [opEnabled] using henabled
    cases (exec_tmoDiscard hf cl).symm.trans h
    exact phase_of_nothing_held (hinv.not_ready_of_running hrun) rfl rfl rfl
  | tmoFinal =>
    cases (exec_tmoFinal hf).symm.trans h
    exact phase_of_rdy rfl
  | tmoStrip =>
    cases (exec_tmoStrip hf).symm.trans h
    exact phase_of_rdy rfl
  | spiShift idx => cases (exec_spiShift hf idx).symm.trans h; rfl
  | spiByte =>
    cases (exec_spiByte hf).symm.trans h
    rw [spiByte_eq_afterHostByte]
    exact hinv.phase_afterHostByte
  | reset =>
    cases h
    rfl

/-! ## Leaving SUSPENDED (R164, 70_reset_and_hazards.md R227) -/

section Suspended

variable {p : Pins} {s : State}

/-- Without a running timer and without a pulse, part 2 has nothing to do, and part 1 starts no timer. -/
theorem ticked_of_stopped (hrun : s.tmrRun = false) (hp : restarts p s = false) :
    (sampled p s).tmrRun = false ∧ ticked p s = latchSck p.sck (afterSerial p (sampled p s)) := by
  have hstill : (sampled p s).tmrRun = false :=
    Bool.eq_false_iff.2 fun ht => Bool.noConfusion (hrun.symm.trans (tmrRun_of_sampled hp ht))
  exact ⟨hstill, by rw [ticked, afterTimer_of_still (.inl hstill)]⟩

theorem ticked_cnt_of_stopped (hrun : s.tmrRun = false) (hp : restarts p s = false) : (ticked p s).cnt = s.cnt := by
  obtain ⟨-, hticked⟩ := ticked_of_stopped hrun hp
  simp [hticked, sampled_cnt_of_no_pulse hp]

/-- The host's clock only lowers `Rdy`, and a suspended frame has no other way out of its phase. -/
theorem ticked_suspended (hs : phase s = .suspended) (hp : restarts p s = false) : phase (ticked p s) = .suspended := by
  obtain ⟨hr, hrun, hc⟩ := phase_eq_suspended_iff.1 hs
  obtain ⟨hstill, hticked⟩ := ticked_of_stopped hrun hp
  refine phase_eq_suspended_iff.2 ⟨?_, ?_, ?_⟩
  · simp [hticked, hr]
  · simp [hticked, hstill]
  · rwa [ticked_cnt_of_stopped hrun hp]

end Suspended

/-- Settles O47: with the timer stopped and no pulse, only the line latch and the serializer have something to do, and neither
writes the count or starts the timer. -/
theorem suspendedFrameWaitsForPulseOrReset : Obligations.SuspendedFrameWaitsForPulseOrReset := by
  intro s t _ hf hs hrst hp h
  have hquiet : restarts (nextSample s) (takeSample s) = false := hp
  obtain ⟨-, hrun, -⟩ := phase_eq_suspended_iff.1 hs
  cases ((tick_eq (s := takeSample s) hrst hf).trans (if_neg (by simp [hquiet]))).symm.trans h
  exact ⟨ticked_suspended (s := takeSample s) hs hquiet, ticked_cnt_of_stopped (s := takeSample s) hrun hquiet,
    (ticked_fault _ _).trans hf⟩

end Sys2Proof.Machine

/-! Proofs of the statements of 60_exceptions.md: a step runs the decoded words of its three parts and always answers (R187,
R190), the parts that meet in one tick (R191, R192, R193), and the event level, which simulates the tick (R194). -/

namespace Sys2Proof.Machine

/-! ## The step and the words of its parts (R187, R190) -/

/-- Settles O25: `runPart` decodes and runs, and a step is the tick on the next sample, whose three parts are written out. -/
theorem stepRunsDecodedInstructions : Obligations.StepRunsDecodedInstructions := by
  refine ⟨fun w i s hw => by simp only [runPart, runWord, hw], fun _ => rfl, ?_⟩
  rintro s p u rfl rfl
  refine ⟨fun hr => tick_reset hr _, fun hr hf => tick_faulted hr hf, fun hr hf => ⟨fun f h => ?_, fun u1 h => ?_⟩⟩
  · simp only [step, tickNext, tick, hr, hf, h, Bool.false_eq_true, if_false]
  · simp only [step, tickNext, tick, hr, hf, h, Bool.false_eq_true, if_false]
    rfl

/-- A reset, a standing fault, a raised fault and the three parts each answer a next state (R190). -/
theorem tick_total (p : Pins) (s : State) : ∃ t, tick p s = .next t := by
  cases hr : p.rst with
  | true => exact ⟨_, tick_reset hr s⟩
  | false =>
    by_cases hf : s.fault = none
    · rw [tick_eq hr hf]
      split
      · exact ⟨_, rfl⟩
      · exact ⟨_, rfl⟩
    · exact ⟨_, tick_faulted hr hf⟩

/-- Settles O27: a step is a tick, whatever its sample is. -/
theorem stepIsTotal : Obligations.StepIsTotal := fun s => tick_total (nextSample s) (takeSample s)

/-! ## The event level (R194) -/

/-- A running timer that was not restarted expires at its deadline (41_frame_timer.md R123). -/
theorem afterTimer_of_timeout {s : State} (hrun : s.tmrRun = true) (hd : s.tmrCnt + 1 = s.params.deadline) :
    afterTimer false s = afterTimeout s := by
  simp [afterTimer, atDeadline, hrun, hd]

@[simp] theorem sampled_fault (p : Pins) (s : State) : (sampled p s).fault = s.fault := by
  rcases sampled_cases p s with ⟨-, -, h⟩ | ⟨-, -, h⟩ | ⟨-, -, h⟩ <;> simp [h]

section ForgetTime

variable (p : Pins) (s : State)

theorem override_forgetTime : override (forgetTime s) = forgetTime (override s) := by
  unfold override
  rw [apply_ite forgetTime]
  rfl

theorem counted_forgetTime (b : Bool) : counted b (forgetTime s) = forgetTime (counted b s) := by
  change startTimer (bumpCnt (appendBit b (override (forgetTime (stopTimer s))))) = _
  rw [override_forgetTime]
  cases b <;> rfl

/-- Part 1 reads neither the timer count nor the sampled clock level. -/
theorem sampled_forgetTime : sampled p (forgetTime s) = forgetTime (sampled p s) := by
  have hquiet : afterQuiet p (forgetTime s) = forgetTime (afterQuiet p s) := by
    simp only [afterQuiet, forgetTime_params, forgetTime_linePrev]
    cases idleStops s.params.idleStop s.linePrev (linesOf p) <;> rfl
  have hpulse : afterPulse p (forgetTime s) = forgetTime (afterPulse p s) :=
    counted_forgetTime (latchLines (linesOf p) s) _
  simp only [sampled, hquiet, hpulse, forgetTime_linePrev, Bool.apply_cond forgetTime]

@[simp] theorem pulseOverflows_forgetTime : pulseOverflows (forgetTime s) = pulseOverflows s := by
  simp [pulseOverflows]

theorem afterTimeout_forgetTime : afterTimeout (forgetTime s) = forgetTime (afterTimeout s) := by
  simp only [afterTimeout, forgetTime_cnt, Bool.apply_cond forgetTime]
  rfl

theorem afterSckFall_forgetTime : afterSckFall (forgetTime s) = forgetTime (afterSckFall s) := by
  simp only [afterSckFall, forgetTime_spiCnt, Bool.apply_cond forgetTime]
  rfl

end ForgetTime

/-- From every state that agrees with `s` but for time, the events lead to a state that agrees with `t` but for time. -/
def EventsLead (es : List Event) (s t : State) : Prop :=
  ∀ u, forgetTime u = forgetTime s → ∃ v, runEvents es u = .next v ∧ forgetTime v = forgetTime t

section EventsLead

variable {p : Pins} {s t : State}

theorem EventsLead.append {es es' : List Event} {w : State} (h : EventsLead es s t) (h' : EventsLead es' t w) :
    EventsLead (es ++ es') s w := by
  intro u hu
  obtain ⟨v, hv, hvt⟩ := h u hu
  rw [runEvents_append, hv, andThen_next]
  exact h' v hvt

theorem EventsLead.nil (h : forgetTime s = forgetTime t) : EventsLead [] s t := fun u hu => ⟨u, rfl, hu.trans h⟩

/-- One event, whose effect `f` commutes with forgetting time. -/
theorem EventsLead.single {e : Event} {f : State → State} (hcomm : ∀ u, f (forgetTime u) = forgetTime (f u))
    (hrun : ∀ u, forgetTime u = forgetTime s → eventStep e u = .next (f u)) : EventsLead [e] s (f s) := by
  intro u hu
  exact ⟨f u, (runEvents_one e u).trans (hrun u hu), by rw [← hcomm, hu, hcomm]⟩

theorem fault_of_forgetTime (h : forgetTime s = forgetTime t) (hf : t.fault = none) : s.fault = none :=
  (congrArg State.fault h).trans hf

theorem resetEvent_leads : EventsLead [.reset] s (resetState s) :=
  .single (fun _ => rfl) fun _ _ => rfl

/-- The sampler's event (40_sampler.md R101). -/
theorem lineEvents_lead (hf : s.fault = none) (hroom : ¬ (restarts p s = true ∧ pulseOverflows s = true)) :
    EventsLead (lineEvents p s) s (sampled p s) := by
  by_cases hl : linesOf p = s.linePrev
  · rw [lineEvents, if_pos hl, sampled, beq_iff_eq.2 hl, cond_true]
    exact .nil rfl
  · rw [lineEvents, if_neg hl]
    refine .single (sampled_forgetTime p) fun u hu => ?_
    have hlines : u.linePrev = s.linePrev := (congrArg State.linePrev hu :)
    have hfull : pulseOverflows u = pulseOverflows s := by simpa using congrArg pulseOverflows hu
    exact eventStep_line (fault_of_forgetTime hu hf) (hlines ▸ hl) (by rwa [restarts, hlines, hfull])

/-- The timer's event, or a dropped `TMR.TICK` (41_frame_timer.md R122 to R124). -/
theorem timerEvents_lead (r : Bool) (hf : s.fault = none) : EventsLead (timerEvents r s) s (afterTimer r s) := by
  unfold timerEvents
  rcases afterTimer_cases r s with ⟨hstill, ht⟩ | ⟨-, -, hd, ht⟩ | ⟨hrun, rfl, hd, -⟩
  · have hnone : ¬ (s.tmrRun && !r && atDeadline s) = true := by rcases hstill with h | h <;> simp [h]
    rw [if_neg hnone, ht]
    exact .nil rfl
  · rw [if_neg (by simp [atDeadline, hd]), ht]
    exact .nil rfl
  · rw [if_pos (by simp [atDeadline, hrun, hd]), afterTimer_of_timeout hrun hd]
    exact .single afterTimeout_forgetTime fun u hu =>
      eventStep_expire (fault_of_forgetTime hu hf) ((congrArg State.tmrRun hu :).trans hrun)

/-- The serializer's event (42_serializer.md R142). -/
theorem serialEvents_lead (hf : s.fault = none) : EventsLead (serialEvents p s) s (afterSerial p s) := by
  unfold serialEvents afterSerial
  cases sckFalls p s with
  | false => exact .nil rfl
  | true =>
    exact .single (f := afterSckFall) afterSckFall_forgetTime fun u hu =>
      eventStep_sckFall (fault_of_forgetTime hu hf)

/-- The three parts in their order; the clock that the tick stores is forgotten. -/
theorem tickEvents_lead (hr : p.rst = false) (hf : s.fault = none)
    (hroom : ¬ (restarts p s = true ∧ pulseOverflows s = true)) : EventsLead (tickEvents p s) s (ticked p s) := by
  have hs1 : (sampled p s).fault = none := (sampled_fault p s).trans hf
  have htick : tickEvents p s = lineEvents p s ++ timerEvents (restarts p s) (sampled p s) ++
      serialEvents p (afterTimer (restarts p s) (sampled p s)) := by
    rw [tickEvents, hr, if_neg Bool.false_ne_true, hf, sampler_eq hf, if_neg hroom, serialEvents, serialEvents,
      sckFalls_afterTimer_sampled]
  rw [htick]
  exact ((lineEvents_lead hf hroom).append (timerEvents_lead _ hs1)).append
    (serialEvents_lead ((afterTimer_fault _ _).trans hs1))

end EventsLead

/-- Settles O52: a reset is its own event, and the events of the three parts lead where the parts do; a tick on a standing
fault leaves it standing. -/
theorem eventLevelSimulatesTick : Obligations.EventLevelSimulatesTick := by
  intro p s t u hu h ht
  suffices hlead : EventsLead (tickEvents p s) s t from hlead u hu
  cases hr : p.rst with
  | true =>
    cases (tick_reset hr s).symm.trans h
    rw [tickEvents, if_pos hr]
    exact resetEvent_leads
  | false =>
    by_cases hf : s.fault = none
    · rcases tick_ok h hf ht with ⟨hreset, -⟩ | ⟨-, hroom, rfl⟩
      · exact Bool.noConfusion (hr.symm.trans hreset)
      · exact tickEvents_lead hr hf hroom
    · cases (tick_faulted hr hf).symm.trans h
      exact absurd ht hf

/-! ## Two parts in one tick (R191 to R193) -/

section Overlap

variable {p : Pins} {s s1 : State}

theorem tick_of_room (hr : p.rst = false) (hf : s.fault = none)
    (hroom : ¬ (restarts p s = true ∧ pulseOverflows s = true)) : tick p s = .next (ticked p s) :=
  (tick_eq hr hf).trans (if_neg hroom)

/-- A valid pulse leaves part 2 nothing to do (41_frame_timer.md R122). -/
theorem ticked_of_pulse (h : restarts p s = true) : ticked p s = latchSck p.sck (afterSerial p (afterPulse p s)) := by
  rw [ticked, sampled_of_pulse h, afterTimer_of_still (.inr h)]

theorem pulseOverflows_of_ready (h : s.rdy = true) : pulseOverflows s = false := by
  simp [pulseOverflows, h]

/-- No transition of the idle-stop set is a valid pulse, and part 1 stops the timer at each (40_sampler.md R107). -/
theorem sampled_of_idleStop {move : QuietMove} (hprev : move.prev = s.linePrev) (hcur : move.cur = linesOf p)
    (hin : s.params.idleStop.has move = true) :
    restarts p s = false ∧ sampled p s = latchLines (linesOf p) (stopTimer s) := by
  have hq : restarts p s = false := by
    rw [restarts, ← hcur]
    cases move <;> exact Bool.and_false _
  have hmoves : linesOf p ≠ s.linePrev := by
    rw [← hcur, ← hprev]
    cases move <;> decide
  have hidle : idleStops s.params.idleStop s.linePrev (linesOf p) = true := by
    rw [idleStops, ← hcur, ← hprev, lineInstr_move, quietInstr, if_pos hin]
    rfl
  refine ⟨hq, ?_⟩
  rcases sampled_cases p s with ⟨h, -, -⟩ | ⟨-, -, hs⟩ | ⟨-, h, -⟩
  · exact absurd h hmoves
  · rw [hs, afterQuiet, hidle, cond_true]
  · exact absurd (hq.symm.trans h) Bool.false_ne_true

/-- A sample that shows no transition of the idle-stop set leaves the timer running (40_sampler.md R104, R107 to R109). -/
theorem sampled_tmrRun_of_no_idleStop (hrun : s.tmrRun = true)
    (hout : ∀ move : QuietMove, move.prev = s.linePrev → move.cur = linesOf p → s.params.idleStop.has move = false) :
    (sampled p s).tmrRun = true := by
  by_contra hstop
  obtain ⟨move, hprev, hcur, hin⟩ :=
    exists_move_of_idleStops (idleStops_of_sampled_stops hrun (Bool.eq_false_iff.2 hstop))
  exact Bool.noConfusion (hin.symm.trans (hout move hprev hcur))

/-- What part 1 leaves, read off its answer. -/
theorem eq_sampled_of_sampler (hf : s.fault = none) (h : runPart (samplerWord p s) s = .next s1) : s1 = sampled p s := by
  rw [sampler_eq hf] at h
  split at h
  · cases h
  · cases h
    rfl

/-- The finalization of an even count, with the strip where the count is not a multiple of 4 (41_frame_timer.md R126, R127). -/
theorem afterTimer_of_even_timeout (hrun : s.tmrRun = true) (hd : s.tmrCnt + 1 = s.params.deadline)
    (heven : s.cnt.toNat % 2 = 0) :
    ∃ u, afterTimer false s = finalize u ∧ u.cnt = s.cnt ∧ u.tmrRun = false ∧ u.spiCnt = s.spiCnt ∧
      u.sckPrev = s.sckPrev ∧ u.acc = if s.cnt.toNat % 4 = 2 then stripped s.params s.acc s.cnt else s.acc := by
  rw [afterTimer_of_timeout hrun hd]
  by_cases h4 : s.cnt.toNat % 4 = 2
  · exact ⟨_, afterTimeout_of_two_mod_four h4, rfl, rfl, rfl, rfl, (if_pos h4).symm⟩
  · exact ⟨_, afterTimeout_of_zero_mod_four (by omega), rfl, rfl, rfl, rfl, (if_neg h4).symm⟩

theorem afterSerial_of_byte_end (hfall : sckFalls p s = true) (h7 : s.spiCnt = 7#3) :
    afterSerial p s = afterHostByte s := by
  rw [afterSerial, hfall, cond_true, afterSckFall_of_seven h7]

theorem afterSerial_inside_byte (hfall : sckFalls p s = true) (h7 : s.spiCnt ≠ 7#3) :
    afterSerial p s = latchSck false (bumpSpi (shiftOut s)) := by
  rw [afterSerial, hfall, cond_true, afterSckFall_of_ne_seven h7]

end Overlap

/-- Settles O29: part 1 comes before part 2, restarts or stops the timer there, or leaves it to its deadline. -/
theorem pulseBeatsDeadlineInTheSameTick : Obligations.PulseBeatsDeadlineInTheSameTick := by
  intro p s hr hf hrun hd
  refine ⟨fun hpulse hroom => ?_, fun move hprev hcur hin => ?_, fun hquiet hout => ?_⟩
  · refine ⟨_, tick_of_room hr hf (by simp [hroom]), ?_⟩
    rw [ticked_of_pulse hpulse]
    cases hready : s.rdy <;> simp [hready]
  · obtain ⟨hq, hs⟩ := sampled_of_idleStop hprev hcur hin
    refine ⟨_, tick_of_room hr hf (by simp [hq]), ?_⟩
    rw [ticked, hs, afterTimer_of_still (.inl rfl)]
    simp
  · have hq : restarts p s = false := hquiet
    have hd' : (sampled p s).tmrCnt + 1 = (sampled p s).params.deadline := by
      rw [sampled_tmrCnt_of_no_pulse hq, sampled_params, hd]
    obtain ⟨hstop, hcnt, hlen, -⟩ := afterTimer_at_deadline (sampled_tmrRun_of_no_idleStop hrun hout) hd'
    refine ⟨_, tick_of_room hr hf (by simp [hq]), ?_⟩
    simp [ticked, hq, hstop, hcnt, hlen, sampled_cnt_of_no_pulse hq]

/-- Settles O30: part 3 finds the length that part 2 loaded, and shifts it or loads the first payload byte over it. -/
theorem finalizationMeetsSerialEdge : Obligations.FinalizationMeetsSerialEdge := by
  rintro p s s1 _ hr hf hprev hlow h hq hrun hd heven rfl
  have hs1 := eq_sampled_of_sampler hf h
  have hspi : s1.spiCnt = s.spiCnt := by simp [hs1]
  obtain ⟨u, hu, hcnt, hstop, huspi, husck, hacc⟩ := afterTimer_of_even_timeout hrun hd heven
  have hfall : sckFalls p (finalize u) = true := sckFalls_iff.2 ⟨by simp [husck, hs1, hprev], hlow⟩
  refine ⟨_, tick_of_sampler hr hf h, ?_⟩
  rw [hq, hu, ← hacc, ← hspi, ← huspi, ← hcnt]
  refine ⟨by simp, by simpa using hstop, by simp [lengthByte], fun h7 => ?_, fun h7 => ?_⟩
  · rw [afterSerial_inside_byte hfall h7]
    exact ⟨rfl, rfl, rfl, rfl⟩
  · rw [afterSerial_of_byte_end hfall h7]
    exact ⟨rfl, rfl, rfl, rfl⟩

/-- Settles O31: the override leaves the new bit alone in the accumulator, and the byte load takes it out with the low byte. -/
theorem supersedingPulseMeetsByteComplete : Obligations.SupersedingPulseMeetsByteComplete := by
  intro p s hr hf hready hpulse hprev hlow h7
  have hfall : sckFalls p (afterPulse p s) = true := sckFalls_iff.2 ⟨by simpa using hprev, hlow⟩
  refine ⟨_, tick_of_room hr hf (by simp [pulseOverflows_of_ready hready]), ?_⟩
  rw [ticked_of_pulse hpulse, afterSerial_of_byte_end hfall (by simpa using h7)]
  have hcnt : (afterPulse p s).cnt = 1#6 := by simp [hready]
  have hrun : (afterPulse p s).tmrRun = true := by simp
  have hacc : (afterPulse p s).acc = if linesOf p = LinePair.LH then 1#64 else 0#64 := by
    simp [hready, oneHot, Bool.cond_eq_ite]
  refine ⟨hcnt, ?_, rfl, hrun, ?_⟩
  · change (afterPulse p s).acc >>> 8 = 0#64
    rw [hacc]
    split <;> rfl
  · change rev8 (lowByte (afterPulse p s).acc) = _
    rw [hacc]
    split <;> rfl

end Sys2Proof.Machine

/-! Proofs of the statements of 70_reset_and_hazards.md: RESET and the first tick after it (R210, R215), the parameters
(R214), and what the host's and the reader's duties keep (R220 to R222, R227, R230). -/

namespace Sys2Proof.Machine

/-! ## Reset and the parameters (R210, R214) -/

/-- Settles O17: the operation has no guard, and the tick looks at `rst` before everything else. -/
theorem resetClearsEveryElement : Obligations.ResetClearsEveryElement :=
  ⟨decode_resetWord, fun s => ⟨rfl, fun _ hr => tick_reset hr s⟩⟩

@[simp] theorem ticked_params (p : Pins) (s : State) : (ticked p s).params = s.params := by simp [ticked]

/-- A tick keeps the parameters, the one that raises the fault and those on a standing fault included. -/
theorem tick_params {p : Pins} {s t : State} (h : tick p s = .next t) : t.params = s.params := by
  cases hr : p.rst with
  | true =>
    cases (tick_reset hr s).symm.trans h
    rfl
  | false =>
    by_cases hf : s.fault = none
    · rw [tick_eq hr hf] at h
      split at h
      · cases h
        rfl
      · cases h
        exact ticked_params p s
    · cases (tick_faulted hr hf).symm.trans h
      rfl

/-- Settles O42: a step is a tick on its sample. -/
theorem parametersNeverChange : Obligations.ParametersNeverChange := fun s _ h => tick_params (s := takeSample s) h

/-! ## The first tick after reset (R215) -/

section SerialPart

variable {p : Pins} {s : State}

theorem afterSerial_of_fall (h : sckFalls p s = true) : afterSerial p s = afterSckFall s := by
  rw [afterSerial, h, cond_true]

theorem afterSerial_of_no_fall (h : sckFalls p s = false) : afterSerial p s = s := by
  rw [afterSerial, h, cond_false]

theorem sckFalls_of_sckPrev_low (h : s.sckPrev = false) : sckFalls p s = false := by
  rw [sckFalls, h, Bool.false_and]

end SerialPart

section FirstTick

variable (p : Pins) (prm : Config.Params) (inputs : List Pins) (n : Nat)

/-- After reset the clock is latched low and the timer is stopped, so that the sampler alone has something to do. -/
theorem ticked_resetWith :
    ticked p (State.resetWith prm inputs n) = latchSck p.sck (sampled p (State.resetWith prm inputs n)) := by
  obtain ⟨-, -, -, hsck⟩ := sampled_keeps_staged (p := p) (s := State.resetWith prm inputs n)
  have hfall : sckFalls p (sampled p (State.resetWith prm inputs n)) = false := sckFalls_of_sckPrev_low hsck
  cases hp : restarts p (State.resetWith prm inputs n) with
  | true => rw [ticked, hp, afterTimer_of_still (.inr rfl), afterSerial_of_no_fall hfall]
  | false =>
    obtain ⟨-, hticked⟩ := ticked_of_stopped (s := State.resetWith prm inputs n) rfl hp
    rw [hticked, afterSerial_of_no_fall hfall]

/-- The reset state holds idle lines, so a single low line is a pulse. -/
theorem restarts_resetWith : restarts p (State.resetWith prm inputs n) = isPulse (linesOf p) := by
  change (linesOf p != LinePair.HH && isPulse (linesOf p)) = isPulse (linesOf p)
  rcases linePair_cases (linesOf p) with h | h | h | h <;> rw [h] <;> rfl

/-- The first tick on a low line counts its bit. -/
theorem ticked_resetWith_of_pulse (hp : isPulse (linesOf p) = true) :
    ticked p (State.resetWith prm inputs n) = latchSck p.sck (afterPulse p (State.resetWith prm inputs n)) := by
  rw [ticked_resetWith, sampled_of_pulse ((restarts_resetWith p prm inputs n).trans hp)]

/-- The first tick on any other lines stores them; there is no timer to stop. -/
theorem ticked_resetWith_of_no_pulse (hq : isPulse (linesOf p) = false) :
    ticked p (State.resetWith prm inputs n) =
      latchSck p.sck (latchLines (linesOf p) (State.resetWith prm inputs n)) := by
  rw [ticked_resetWith]
  exact congrArg _ ((sampled_of_no_pulse ((restarts_resetWith p prm inputs n).trans hq)).elim id id)

theorem startPremise_iff : startPremise p = true ↔ linesOf p = LinePair.HH ∧ p.sck = false := by
  obtain ⟨rst, d1, d0, sck⟩ := p
  cases d1 <;> cases d0 <;> cases sck <;> decide +revert

theorem step_resetWith (hr : p.rst = false) :
    step (State.resetWith prm (p :: inputs) n) = .next (ticked p (State.resetWith prm inputs (n + 1))) := by
  rw [step_of_listed (p := p) rfl]
  exact tick_of_room (s := State.resetWith prm inputs (n + 1)) hr rfl
    fun hfull => by simp [pulseOverflows, State.resetWith] at hfull

end FirstTick

/-- Settles O32: the tick is part 1 alone, `ValidBit` on an empty block for a single low line and the line latch for
other lines; idle lines are latched already. -/
theorem firstTickAfterResetTakesLowLinesAsTransition : Obligations.FirstTickAfterResetTakesLowLinesAsTransition := by
  intro prm p rest n hr
  have hpulse := ticked_resetWith_of_pulse p prm rest (n + 1)
  have hquiet := ticked_resetWith_of_no_pulse p prm rest (n + 1)
  refine ⟨_, step_resetWith p prm rest n hr, ?_, ticked_sckPrev _ _, fun hl => ?_, fun hl => ?_, fun hl => ?_,
    fun hl => ?_, fun hstart => ?_⟩
  · rw [ticked_spiCnt, sckFalls_of_sckPrev_low rfl]
    rfl
  · rw [hpulse (by rw [hl]; rfl), afterPulse, hl]
    exact ⟨rfl, rfl, rfl⟩
  · rw [hpulse (by rw [hl]; rfl), afterPulse, hl]
    exact ⟨rfl, by simp [State.resetWith, oneHot], rfl⟩
  · rw [hquiet (by rw [hl]; rfl), hl]
    exact ⟨rfl, rfl, rfl, rfl⟩
  · rw [hquiet (by rw [hl]; rfl), hl]
    exact ⟨rfl, rfl, rfl⟩
  · obtain ⟨hl, hsck⟩ := (startPremise_iff p).1 hstart
    rw [hquiet (by rw [hl]; rfl), hl, hsck]
    rfl

/-! ## The reader's and the host's duties in one tick (R220, R230) -/

@[simp] theorem pulseOverflows_takeSample (s : State) : pulseOverflows (takeSample s) = pulseOverflows s := by
  simp [pulseOverflows]

/-- Settles O37: the tick records a fault only for a pulse that finds the counter full. -/
theorem noFaultWithFewerThan64Pulses : Obligations.NoFaultWithFewerThan64Pulses := by
  intro s t hf hduty h
  cases hr : (nextSample s).rst with
  | true =>
    cases (tick_reset hr (takeSample s)).symm.trans h
    rfl
  | false =>
    have hroom : ¬ (restarts (nextSample s) (takeSample s) = true ∧ pulseOverflows (takeSample s) = true) := by
      rintro ⟨hp, hfull⟩
      rw [pulseOverflows_takeSample, hduty hp] at hfull
      cases hfull
    cases (tick_of_room (s := takeSample s) hr hf hroom).symm.trans h
    exact (ticked_fault _ _).trans hf

section HeldBits

variable {p : Pins} {s : State}

/-- A host that clocks only in transfers does not clock while bits are held, since no frame is staged then (I-2). -/
theorem State.Inv.no_fall_of_held {f : Fetch} (hinv : s.Inv) (hheld : s.cnt ≠ 0#6)
    (hunread : s.cnt ≠ 0#6 → f = .waiting) (hclocks : clocksOnlyTransfers f p s) (hr : p.rst = false) :
    sckFalls p s = false := by
  rw [Bool.eq_false_iff]
  intro hfall
  rcases hclocks hr hfall with hunder | ⟨hready, -⟩
  · exact hunder (hunread hheld)
  · exact hheld (hinv.readyIsStill hready).1

/-- In a tick without an edge of the host's clock a pulse appends above the held bits. -/
theorem afterPulse_getLsbD_acc_below (hr : s.rdy = false) {i : Nat} (hi : i < s.cnt.toNat) :
    (afterPulse p s).acc.getLsbD i = s.acc.getLsbD i := by
  have hbelow : i ≠ s.cnt.toNat := hi.ne
  rw [afterPulse, counted_getLsbD_acc (s := latchLines (linesOf p) s) _ hr]
  simp [hbelow]

/-- Without an edge of the host's clock a tick that ends with bits held leaves those held before it in place. -/
theorem ticked_keeps_held_bits (hinv : s.Inv) (hstill : sckFalls p s = false) (hheld : s.cnt ≠ 0#6)
    (hc : (ticked p s).cnt ≠ 0#6) {i : Nat} (hi : i < s.cnt.toNat) :
    (ticked p s).acc.getLsbD i = s.acc.getLsbD i := by
  have hready : s.rdy = false := Bool.eq_false_iff.2 fun hr => hheld (hinv.readyIsStill hr).1
  rw [ticked, afterSerial_of_no_fall (by simpa using hstill)] at hc ⊢
  obtain ⟨-, hacc⟩ := afterTimer_keeps_bits _ hc
  rw [latchSck_acc, hacc]
  cases hp : restarts p s with
  | true => rw [sampled_of_pulse hp, afterPulse_getLsbD_acc_below hready hi]
  | false => rw [sampled_acc_of_no_pulse hp]

theorem cnt_ne_zero_of_ticked (hq : restarts p s = false) (hc : (ticked p s).cnt ≠ 0#6) : s.cnt ≠ 0#6 := by
  have htimer : (afterTimer (restarts p s) (sampled p s)).cnt ≠ 0#6 := by simpa [ticked] using hc
  obtain ⟨hcnt, -⟩ := afterTimer_keeps_bits _ htimer
  rwa [hcnt, sampled_cnt_of_no_pulse hq] at htimer

end HeldBits

/-- Settles O38: bits are held after the tick because of a pulse in it, which ends every transfer, or because they were
held before it, and then the host has nothing to clock for. -/
theorem heldBitsStayWhileHostKeepsItsDuty : Obligations.HeldBitsStayWhileHostKeepsItsDuty := by
  intro s t f hinv hf hunread hclocks h ht hc
  rcases tick_ok (s := takeSample s) h hf ht with ⟨-, rfl⟩ | ⟨hr, -, rfl⟩
  · exact absurd rfl hc
  · have hstill (hheld : s.cnt ≠ 0#6) : sckFalls (nextSample s) s = false :=
      hinv.no_fall_of_held hheld hunread hclocks hr
    refine ⟨?_, fun hheld i hi => ticked_keeps_held_bits hinv.takeSample (hstill hheld) hheld hc hi⟩
    cases hp : pulseSeen (nextSample s) s with
    | true => exact f.after_pulse hp
    | false =>
      have hheld : s.cnt ≠ 0#6 := cnt_ne_zero_of_ticked (s := takeSample s) hp hc
      rw [f.after_still hr hp (hstill hheld), hunread hheld]

/-! ## The host's transfer, part by part (R220 to R222; 10_state.md R36) -/

section FetchParts

variable {p : Pins} {s : State} {f : Fetch}

theorem State.FetchInv.latchLines (cur : LinePair) (h : s.FetchInv f) : (latchLines cur s).FetchInv f := { h with }

theorem State.FetchInv.latchSck (sck : Bool) (h : s.FetchInv f) : (latchSck sck s).FetchInv f := { h with }

theorem State.FetchInv.takeSample (h : s.FetchInv f) : (takeSample s).FetchInv f := { h with }

theorem State.FetchInv.stopTimer (h : s.FetchInv f) : (stopTimer s).FetchInv f := { h with }

theorem State.FetchInv.bumpTimer (h : s.FetchInv f) : (bumpTimer s).FetchInv f := { h with }

/-- A transfer without edges left has drained the accumulator (R222). -/
theorem State.FetchInv.acc_of_fetched (h : s.FetchInv (.under 0)) : s.acc = 0#64 :=
  BitVec.eq_of_getLsbD_eq fun i _ => (h.leftFits 0 rfl i (Nat.zero_le i)).trans BitVec.getLsbD_zero.symm

/-- A host that finishes its transfers leaves the next frame a drained accumulator (R221, R222). -/
theorem State.FetchInv.startsOnDrained (h : s.FetchInv f) (hfinishes : finishesBeforeNextFrame f p s)
    (hr : p.rst = false) : startsOnDrained p s := by
  intro hpulse hc hready
  obtain ⟨-, rfl | rfl⟩ := hfinishes hr hpulse
  · exact h.waitingClean rfl hready hc
  · exact h.acc_of_fetched

/-- A pulse that finds room appends below the new count, on a drained accumulator if it is the first of its frame. -/
theorem State.FetchInv.afterPulse (h : s.FetchInv f) (hdrained : Machine.startsOnDrained p s) (hp : restarts p s = true)
    (hroom : pulseOverflows s = false) : (afterPulse p s).FetchInv .waiting where
  heldFits _ := afterPulse_accFits p hroom (override_accFits h.heldFits (hdrained hp))
  heldUnread _ := rfl
  stagedFits hr := by simp at hr
  waitingClean _ _ hc := absurd hc (by rw [afterPulse_cnt]; exact bump_ne_zero _ (count_has_room hroom))
  leftFits := nofun
  leftAligned := nofun

theorem State.FetchInv.sampled_of_no_pulse (h : s.FetchInv f) (hq : restarts p s = false) :
    (sampled p s).FetchInv f := by
  rcases Machine.sampled_of_no_pulse hq with hs | hs
  · exact hs ▸ h.latchLines _
  · exact hs ▸ h.stopTimer.latchLines _

theorem State.FetchInv.discard (h : s.FetchInv f) : (clearAcc (clearCnt (Machine.stopTimer s))).FetchInv f where
  heldFits hc := absurd rfl hc
  heldUnread hc := absurd rfl hc
  stagedFits _ _ _ _ := BitVec.getLsbD_zero
  waitingClean _ _ _ := rfl
  leftFits _ _ _ _ := BitVec.getLsbD_zero
  leftAligned := h.leftAligned

theorem lengthByte_toNat (n : BitVec 6) : (lengthByte n).toNat = n.toNat :=
  BitVec.toNat_setWidth_of_le (by decide)

/-- A frame that lies in its payload bits when it is staged waits there for its transfer. -/
theorem finalize_fetchInv (hfits : ∀ i, payloadBits s.cnt.toNat ≤ i → s.acc.getLsbD i = false) :
    (finalize s).FetchInv .waiting where
  heldFits hc := absurd rfl hc
  heldUnread _ := rfl
  stagedFits _ _ := by simpa [lengthByte_toNat] using hfits
  waitingClean _ hr := Bool.noConfusion hr
  leftFits := nofun
  leftAligned := nofun

/-- A timeout drops the frame, or stages it in as many bits as the host computes from its length: all of a frame of 4 k
bits, and what the strip leaves of any other even frame (30_encoding.md R77, 41_frame_timer.md R128). -/
theorem State.FetchInv.afterTimer (r : Bool) (h : s.FetchInv f) (hinv : s.Inv)
    (hp : s.params.clearIndex = Config.defaultClearIndex) : (afterTimer r s).FetchInv f := by
  rcases afterTimer_cases r s with ⟨-, ht⟩ | ⟨-, -, -, ht⟩ | ⟨hrun, -, -, hout⟩
  · rwa [ht]
  · exact ht ▸ h.bumpTimer
  · have hheld : s.cnt ≠ 0#6 := hinv.timerHoldsBits hrun
    have hfits : s.AccFits := h.heldFits hheld
    obtain rfl := h.heldUnread hheld
    rcases hout with ⟨-, ht⟩ | ⟨h4, ht⟩ | ⟨h4, ht⟩ <;> rw [ht]
    · exact h.discard
    · have hbits : payloadBits s.cnt.toNat = s.cnt.toNat := if_neg (by omega)
      exact finalize_fetchInv (s := Machine.stopTimer s) fun i hi => hfits i (hbits ▸ hi)
    · have hbits : payloadBits s.cnt.toNat = s.cnt.toNat - 2 := if_pos h4
      refine finalize_fetchInv (s := stripAcc (Machine.stopTimer s)) fun i (hi : payloadBits s.cnt.toNat ≤ i) => ?_
      have houter : ¬ i + 2 < s.cnt.toNat := by omega
      have hstrip := getLsbD_stripped_default hp h4 hfits i
      rwa [decide_eq_false houter, Bool.false_and] at hstrip

/-- With no bits held a transfer under way is bound only by the edges that it has left. -/
theorem fetchInv_under {left : Nat} (hc : s.cnt = 0#6)
    (hfits : ∀ i, 8 * ((left + 7) / 8 - 1) ≤ i → s.acc.getLsbD i = false)
    (haligned : left ≠ 0 → (left + s.spiCnt.toNat) % 8 = 0) : s.FetchInv (.under left) where
  heldFits hheld := absurd hc hheld
  heldUnread hheld := absurd hc hheld
  stagedFits _ hw := nomatch hw
  waitingClean hw := nomatch hw
  leftFits _ heq := by cases heq; exact hfits
  leftAligned _ heq := by cases heq; exact haligned

/-- The first edge of a transfer leaves all payload bytes to be loaded. -/
theorem State.FetchInv.firstEdge (h : s.FetchInv .waiting) (hinv : s.Inv) (hready : s.rdy = true)
    (h0 : s.spiCnt = 0#3) : (afterSckFall s).FetchInv (.under (transferEdges s.len - 1)) := by
  rw [afterSckFall_of_ne_seven (by simp [h0])]
  refine fetchInv_under (hinv.readyIsStill hready).1 (fun i hi => h.stagedFits hready rfl i ?_) fun _ => ?_
  · have hbytes := payloadBits_le_transfer s.len
    unfold transferEdges at hi hbytes
    omega
  · change (transferEdges s.len - 1 + (s.spiCnt + 1#3).toNat) % 8 = 0
    have hone : (s.spiCnt + 1#3).toNat = 1 := by rw [h0]; rfl
    rw [hone, transferEdges]
    omega

/-- An edge of a transfer under way leaves one edge less; the one that ends a byte takes the low byte out, and with no
edges left there is nothing more to take (42_serializer.md R144, R145, R233). -/
theorem State.FetchInv.nextEdge {left : Nat} (h : s.FetchInv (.under left)) :
    (afterSckFall s).FetchInv (.under (left - 1)) := by
  have hc : s.cnt = 0#6 := by
    by_contra hheld
    cases h.heldUnread hheld
  have hleft := h.leftFits left rfl
  have haligned := h.leftAligned left rfl
  by_cases h7 : s.spiCnt = 7#3
  · rw [afterSckFall_of_seven h7]
    simp only [h7, BitVec.reduceToNat] at haligned
    refine fetchInv_under hc (fun i hi => ?_) fun hne => ?_
    · change (s.acc >>> 8).getLsbD i = false
      rw [BitVec.getLsbD_ushiftRight]
      exact hleft _ (by omega)
    · change (left - 1 + 0) % 8 = 0
      omega
  · rw [afterSckFall_of_ne_seven h7]
    have hlt : s.spiCnt.toNat < 7 := by bv_omega
    have hspi : (s.spiCnt + 1#3).toNat = s.spiCnt.toNat + 1 := bumpSpi_toNat h7
    refine fetchInv_under hc (fun i hi => hleft i ?_) fun hne => ?_
    · omega
    · change (left - 1 + (s.spiCnt + 1#3).toNat) % 8 = 0
      omega

theorem State.FetchInv.afterSckFall (h : s.FetchInv f) (hinv : s.Inv)
    (hclocks : f ≠ .waiting ∨ (s.rdy = true ∧ s.spiCnt = 0#3)) : (afterSckFall s).FetchInv (f.edge s.len) := by
  cases f with
  | waiting =>
    obtain ⟨hready, h0⟩ := hclocks.resolve_left (absurd rfl)
    exact h.firstEdge hinv hready h0
  | under left => exact h.nextEdge

/-- A tick with a pulse has no edge of the host's clock in it (R221). -/
theorem State.FetchInv.ticked_of_pulse (h : s.FetchInv f) (hfinishes : finishesBeforeNextFrame f p s)
    (hr : p.rst = false) (hp : restarts p s = true) (hroom : pulseOverflows s = false) :
    (ticked p s).FetchInv (f.after p s) := by
  obtain ⟨hstill, -⟩ := hfinishes hr hp
  have hserial : sckFalls p (Machine.afterPulse p s) = false := by simpa [sckFalls] using hstill
  rw [Machine.ticked_of_pulse hp, afterSerial_of_no_fall hserial, f.after_pulse hp]
  exact (h.afterPulse (h.startsOnDrained hfinishes hr) hp hroom).latchSck _

/-- A tick without a pulse never has both a timer over held bits and an edge of the host's clock (R220, R225). -/
theorem State.FetchInv.ticked_of_no_pulse (h : s.FetchInv f) (hinv : s.Inv)
    (hp : s.params.clearIndex = Config.defaultClearIndex) (hclocks : clocksOnlyTransfers f p s) (hr : p.rst = false)
    (hq : restarts p s = false) : (ticked p s).FetchInv (f.after p s) := by
  have hsampled : (sampled p s).FetchInv f := h.sampled_of_no_pulse hq
  have hsinv : (sampled p s).Inv := hinv.sampled p (by simp [hq])
  cases hfall : sckFalls p s with
  | false =>
    rw [ticked, afterSerial_of_no_fall (by simpa using hfall), f.after_still hr hq hfall]
    exact (hsampled.afterTimer _ hsinv (by simpa using hp)).latchSck _
  | true =>
    have hstopped : s.tmrRun = false := by
      rw [Bool.eq_false_iff]
      intro hrun
      exact Bool.noConfusion
        (hfall.symm.trans (hinv.no_fall_of_held (hinv.timerHoldsBits hrun) h.heldUnread hclocks hr))
    obtain ⟨-, hticked⟩ := ticked_of_stopped hstopped hq
    obtain ⟨hlen, -, hspi, hsck⟩ := sampled_keeps_staged (p := p) (s := s)
    rw [hticked, afterSerial_of_fall (by rwa [sckFalls, hsck]), f.after_fall hr hq hfall, ← hlen]
    have hstarts : f ≠ .waiting ∨ (s.rdy = true ∧ s.spiCnt = 0#3) := hclocks hr hfall
    exact (hsampled.afterSckFall hsinv (by simpa [hspi, hq] using hstarts)).latchSck _

end FetchParts

/-- Settles O39: the parts of a tick keep the invariant, and under the two duties no tick has an edge of the host's
clock together with a pulse or with a running timer. -/
theorem everyStepKeepsFetchInvariant : Obligations.EveryStepKeepsFetchInvariant := by
  refine ⟨fun s t f hf hinv hp h hclocks hfinishes hstep ht => ?_,
    fun s f p h hfinishes hr => h.startsOnDrained hfinishes hr⟩
  rcases tick_ok (s := takeSample s) hstep hf ht with ⟨hr, rfl⟩ | ⟨hr, hroom, rfl⟩
  · rw [f.after_reset hr]
    exact resetWith_fetchInv _ _ _
  · cases hq : restarts (nextSample s) (takeSample s) with
    | true => exact h.takeSample.ticked_of_pulse hfinishes hr hq (by simpa [hq] using hroom)
    | false => exact h.takeSample.ticked_of_no_pulse hinv.takeSample hp hclocks hr hq

/-! ## A whole transfer and a glitch at the event level (R222, R227) -/

/-- A byte lowers `Rdy`, and ends at `SpiCnt` = 0. -/
theorem iterate_afterHostByte_succ (n : Nat) (s : State) :
    (afterHostByte^[n + 1] s).rdy = false ∧ (afterHostByte^[n + 1] s).spiCnt = 0#3 := by
  rw [Function.iterate_succ_apply']
  exact ⟨rfl, rfl⟩

/-- Settles O55: each byte clocked moves the accumulator down by eight, and the payload bytes cover the payload bits. -/
theorem fullTransferDrainsAccumulator : Obligations.FullTransferDrainsAccumulator := by
  intro s hf h0 hfits
  obtain ⟨hready, hspi⟩ := iterate_afterHostByte_succ (payloadBytes s.len.toNat) s
  refine ⟨_, runEvents_clockBytes _ hf h0, BitVec.eq_of_getLsbD_eq fun i _ => ?_, hready, hspi⟩
  have hcover := payloadBits_le_transfer s.len
  unfold transferEdges at hcover
  rw [iterate_afterHostByte_acc, BitVec.getLsbD_ushiftRight, BitVec.getLsbD_zero]
  exact hfits _ (by omega)

/-- A change of the lines that is no valid pulse stores them, and stops the timer at an idle stop (40_sampler.md R107 to
R109). -/
theorem eventStep_quiet {s : State} {cur : LinePair} (hf : s.fault = none) (hmoves : cur ≠ s.linePrev)
    (hquiet : isPulse cur = false) :
    eventStep (.line cur) s =
      .next (latchLines cur (bif idleStops s.params.idleStop s.linePrev cur then stopTimer s else s)) := by
  obtain ⟨p, rfl⟩ := exists_linesOf cur
  have hq : restarts p s = false := by rw [restarts, hquiet, Bool.and_false]
  rw [eventStep_line hf hmoves (by simp [hq])]
  rcases sampled_cases p s with ⟨h, -, -⟩ | ⟨-, -, hs⟩ | ⟨-, h, -⟩
  · exact absurd h hmoves
  · rw [hs, afterQuiet]
  · exact Bool.noConfusion (hq.symm.trans h)

/-- Settles O59: of the two transitions the default set holds the second, and the lines end as they began. -/
theorem glitchSuspendsTheFrame : Obligations.GlitchSuspendsTheFrame := by
  intro s hf hl hset
  refine ⟨?_, fun hr hc => phase_eq_suspended_iff.2 ⟨hr, rfl, hc⟩⟩
  have hfall : eventStep (.line LinePair.LL) s = .next (latchLines LinePair.LL s) := by
    rw [eventStep_quiet hf (by rw [hl]; decide) rfl, hset, hl]
    rfl
  have hrise : eventStep (.line LinePair.HH) (latchLines LinePair.LL s) = .next { s with tmrRun := false } := by
    have hmoves : LinePair.HH ≠ (latchLines LinePair.LL s).linePrev := by rw [latchLines_linePrev]; decide
    rw [eventStep_quiet (s := latchLines LinePair.LL s) hf hmoves rfl, latchLines_params, hset]
    change Host.Outcome.next { s with tmrRun := false, linePrev := LinePair.HH } = _
    rw [← hl]
  rw [glitch, runEvents, hfall, andThen_next, runEvents_one, hrise]

end Sys2Proof.Machine

/-! Proof of the statement of 92_eei_decisions.md: `Len`, a stopped `TmrCnt` and `TxPend` never show at the ports (D18). -/

namespace Sys2Proof.Machine

/-! ## States that differ only in what no port shows (D18) -/

section Alike

variable {p : Pins} {a b : State} (h : a.Alike b)
include h

theorem State.Alike.ready : ready a = ready b := h.rdy

theorem State.Alike.dout : dout a = dout b := congrArg (BitVec.getLsbD · 7) h.sr

theorem State.Alike.nextSample : nextSample a = nextSample b := by
  simp only [Machine.nextSample, h.inputs, h.tickNo]

theorem State.Alike.takeSample : (takeSample a).Alike (takeSample b) :=
  { h with inputs := congrArg List.tail h.inputs, tickNo := congrArg (· + 1) h.tickNo }

theorem State.Alike.resetState : (resetState a).Alike (resetState b) :=
  ⟨rfl, rfl, rfl, rfl, rfl, rfl, nofun, rfl, rfl, rfl, h.params, h.inputs, h.tickNo⟩

/-! ### The timer: a stopped count may differ, a running one is the same (10_state.md R28, 41_frame_timer.md R120) -/

theorem State.Alike.startTimer : (startTimer a).Alike (startTimer b) :=
  { h with tmrRun := rfl, tmrCnt := fun _ => rfl }

theorem State.Alike.stopTimer : (stopTimer a).Alike (stopTimer b) := { h with tmrRun := rfl, tmrCnt := nofun }

theorem State.Alike.bumpTimer : (bumpTimer a).Alike (bumpTimer b) :=
  { h with tmrCnt := fun hruns => by rw [bumpTimer_tmrCnt, bumpTimer_tmrCnt, h.tmrCnt hruns, h.params] }

theorem State.Alike.atDeadline (hruns : a.tmrRun = true) : atDeadline a = atDeadline b := by
  simp only [Machine.atDeadline, h.tmrCnt hruns, h.params]

/-! ### The other operations, none of which reads `Len` or `TxPend` -/

theorem State.Alike.latchLines (cur : LinePair) : (latchLines cur a).Alike (latchLines cur b) :=
  { h with linePrev := rfl }

theorem State.Alike.latchSck (sck : Bool) : (latchSck sck a).Alike (latchSck sck b) := { h with sckPrev := rfl }

theorem State.Alike.override : (override a).Alike (override b) := by
  unfold Machine.override
  rw [h.rdy]
  cases b.rdy with
  | true => exact { h with cnt := rfl, acc := rfl, rdy := rfl }
  | false => exact h

theorem State.Alike.pulseOverflows : pulseOverflows a = pulseOverflows b := congrArg (· == 63#6) h.override.cnt

theorem State.Alike.appendBit (bit : Bool) : (appendBit bit a).Alike (appendBit bit b) :=
  match bit with
  | true => { h with acc := congrArg₂ (fun acc (cnt : BitVec 6) => acc ||| oneHot cnt.toNat) h.acc h.cnt }
  | false => h

theorem State.Alike.bumpCnt : (bumpCnt a).Alike (bumpCnt b) := { h with cnt := congrArg (· + 1#6) h.cnt }

theorem State.Alike.counted (bit : Bool) : (counted bit a).Alike (counted bit b) :=
  (h.stopTimer.override.appendBit bit).bumpCnt.startTimer

theorem State.Alike.discard : (clearAcc (clearCnt a)).Alike (clearAcc (clearCnt b)) :=
  { h with cnt := rfl, acc := rfl }

/-- The strip and the staging read the count, not the length staged before (41_frame_timer.md R127, R130). -/
theorem State.Alike.stripAcc : (stripAcc a).Alike (stripAcc b) :=
  { h with acc := by rw [stripAcc_acc, stripAcc_acc, h.params, h.acc, h.cnt] }

theorem State.Alike.finalize : (finalize a).Alike (finalize b) :=
  { h with cnt := rfl, rdy := rfl, sr := congrArg lengthByte h.cnt }

theorem State.Alike.shiftOut : (shiftOut a).Alike (shiftOut b) := { h with sr := congrArg (fun sr : Byte => sr <<< 1) h.sr }

theorem State.Alike.bumpSpi : (bumpSpi a).Alike (bumpSpi b) := { h with spiCnt := congrArg (· + 1#3) h.spiCnt }

theorem State.Alike.clearSpi : (clearSpi a).Alike (clearSpi b) := { h with spiCnt := rfl }

theorem State.Alike.markTxPend : (markTxPend a).Alike (markTxPend b) := { h with }

/-- The transmitter writes `TxPend` and reads the accumulator alone (42_serializer.md R145). -/
theorem State.Alike.txByte : (txByte a).Alike (txByte b) :=
  { h with
    rdy := rfl
    acc := congrArg (fun acc : BitVec 64 => acc >>> 8) h.acc
    sr := congrArg (fun acc => rev8 (lowByte acc)) h.acc }

/-! ### The three parts of a tick (60_exceptions.md R190) -/

theorem State.Alike.restarts : restarts p a = restarts p b := by simp only [Machine.restarts, h.linePrev]

theorem State.Alike.afterQuiet : (afterQuiet p a).Alike (afterQuiet p b) := by
  unfold Machine.afterQuiet
  rw [h.params, h.linePrev]
  cases idleStops b.params.idleStop b.linePrev (linesOf p) with
  | true => exact h.stopTimer.latchLines _
  | false => exact h.latchLines _

theorem State.Alike.sampled : (sampled p a).Alike (sampled p b) := by
  unfold Machine.sampled
  rw [h.linePrev]
  cases linesOf p == b.linePrev with
  | true => exact h
  | false =>
    cases isPulse (linesOf p) with
    | true => exact (h.latchLines _).counted _
    | false => exact h.afterQuiet

theorem State.Alike.afterTimeout : (afterTimeout a).Alike (afterTimeout b) := by
  unfold Machine.afterTimeout
  rw [h.cnt]
  cases b.cnt.getLsbD 0 with
  | true => exact h.stopTimer.discard
  | false =>
    cases lowCount b.cnt == 0#2 with
    | true => exact h.stopTimer.finalize
    | false => exact h.stopTimer.stripAcc.finalize

/-- The deadline is looked at only while the timer runs, and then the two counts are equal (41_frame_timer.md R122, R123). -/
theorem State.Alike.afterTimer (restarted : Bool) : (afterTimer restarted a).Alike (afterTimer restarted b) := by
  unfold Machine.afterTimer
  rw [← h.tmrRun]
  cases hcounts : a.tmrRun && !restarted with
  | false => exact h
  | true =>
    rw [h.atDeadline (Bool.and_eq_true_iff.1 hcounts).1]
    cases Machine.atDeadline b with
    | true => exact h.afterTimeout
    | false => exact h.bumpTimer

theorem State.Alike.afterSckFall : (afterSckFall a).Alike (afterSckFall b) := by
  unfold Machine.afterSckFall
  rw [h.spiCnt]
  cases b.spiCnt == 7#3 with
  | true => exact h.shiftOut.clearSpi.markTxPend.txByte.latchSck _
  | false => exact h.shiftOut.bumpSpi.latchSck _

theorem State.Alike.afterSerial : (afterSerial p a).Alike (afterSerial p b) := by
  unfold Machine.afterSerial
  rw [show sckFalls p a = sckFalls p b from congrArg (· && !p.sck) h.sckPrev]
  cases sckFalls p b with
  | true => exact h.afterSckFall
  | false => exact h

theorem State.Alike.ticked : (ticked p a).Alike (ticked p b) := by
  unfold Machine.ticked
  rw [h.restarts]
  exact (h.sampled.afterTimer _).afterSerial.latchSck _

/-- A tick that leaves no fault is a reset or the three parts, on both sides the same. -/
theorem State.Alike.tick {ta tb : State} (hta : tick p a = .next ta) (htb : tick p b = .next tb)
    (hok : ta.fault = none) : ta.Alike tb := by
  cases hrst : p.rst with
  | true =>
    cases (tick_reset hrst a).symm.trans hta
    cases (tick_reset hrst b).symm.trans htb
    exact h.resetState
  | false =>
    by_cases hf : a.fault = none
    · rcases tick_ok hta hf hok with ⟨hreset, -⟩ | ⟨-, hroom, rfl⟩
      · exact Bool.noConfusion (hrst.symm.trans hreset)
      · rw [h.restarts, h.pulseOverflows] at hroom
        rw [tick_eq hrst (h.fault.symm.trans hf), if_neg hroom] at htb
        cases htb
        exact h.ticked
    · cases (tick_faulted hrst hf).symm.trans hta
      exact absurd hok hf

end Alike

/-- Settles O49: no operation reads `Len` or `TxPend`, and the timer count is read only while the timer runs, so each part of
a tick keeps two such states alike. -/
theorem unobservableStateNeverShows : Obligations.UnobservableStateNeverShows := by
  intro a b h
  refine ⟨h.ready, h.dout, fun ta tb hta htb hok => ?_⟩
  have htb' : tick (nextSample a) (takeSample b) = .next tb := h.nextSample ▸ htb
  have halike : ta.Alike tb := h.takeSample.tick hta htb' hok
  exact ⟨halike, halike.ready, halike.dout⟩

end Sys2Proof.Machine
